-- ==== Sys2Proof/Word.lean ====
section
/-! DEFINITION. The word types of the KB serial-display block and its smallest data types. -/

namespace Sys2Proof

/-- A byte: a glyph column, a character code, what one transmit call carries (R51). -/
abbrev Byte := BitVec 8

/-- An operand word, the width of the latches `A` and `B` (R11). -/
abbrev Word := BitVec 32

/-- A command word `CW` (R70). -/
abbrev CmdWord := BitVec 72

/-- The level of a pin (R22) or of a clock line. -/
abbrev Level := BitVec 1

/-- Four character codes: a frame's characters, `CH4` (R14), the result of a format function (R181). -/
structure Four where
  c0 : Byte
  c1 : Byte
  c2 : Byte
  c3 : Byte
  deriving DecidableEq, Repr, Inhabited

/-- Code `i` of four, counted from the first; past the fourth there is none and the last is repeated. -/
def Four.get (f : Four) : Nat → Byte
  | 0 => f.c0
  | 1 => f.c1
  | 2 => f.c2
  | _ => f.c3

/-- The answer of a collaborator that can fail (R31). -/
inductive Status where
  | ok
  | fail
  deriving DecidableEq, Repr, Inhabited

end Sys2Proof
end

