-- ==== Sys2Proof/Config.lean ====
section
/-! DEFINITION. The parameters of R3 as one record, and the OPEN ones and the free values as opaque
constants. The record that the machine runs with, `deployed`, is put together in
Machine/Deployment.lean. -/

namespace Sys2Proof

/-- One entry of the prescaler table (R41): a divisor and its hardware code (R84). -/
structure PrescEntry where
  div : Nat
  code : BitVec 3
  deriving DecidableEq, Repr

/-- The parameters of R3, then the free values the rules leave to a draw. Every rule's definition takes
a `Params`, so that it holds of any deployment; the machine itself runs with `deployed`. -/
structure Params where
  /-- `PRESC`, index 0 first (R41). -/
  presc : List PrescEntry
  /-- `N_DOM`. -/
  nDom : Nat
  /-- `N_CH`. -/
  nCh : Nat
  /-- `CH_DOM[ch]`. -/
  chDom : Nat → Nat
  /-- `BUS_FREQ[dom]`, hertz. -/
  busFreq : Nat → Nat
  /-- `TARGET_FREQ`, hertz. -/
  targetFreq : Nat
  /-- `DISP_CH`. -/
  dispCh : Nat
  /-- `GLYPH_COUNT`. -/
  glyphCount : Nat
  /-- `GLYPH[c][j]`. -/
  glyph : Nat → Nat → Byte
  /-- `T_SETTLE_US`. -/
  tSettleUs : Nat
  /-- `T_POST_US`. -/
  tPostUs : Nat
  /-- `T_RESET_MS`. -/
  tResetMs : Nat
  /-- `T_SCROLL_MS`. -/
  tScrollMs : Nat
  /-- `TX_TIMEOUT`: passed to every transmit call, in no event. -/
  txTimeout : Nat
  /-- `RS_CTRL`. -/
  rsCtrl : Level
  /-- `RS_DOT`. -/
  rsDot : Level
  /-- `PWM_FIXED`. -/
  pwmFixed : BitVec 4
  /-- `PEAK_FIXED`. -/
  peakFixed : BitVec 2
  /-- `WAKE_S`. -/
  wakeS : BitVec 1
  /-- `FMT_FLOAT` (R182). -/
  fmtFloat : Word → Four
  /-- `FMT_ERR` (R183). -/
  fmtErr : Word → Four
  /-- The status of a `TX` or `TINIT` that the environment has not fixed yet (R31). -/
  freeStatus : Nat → Status
  /-- What `TCFG[ch]` holds after `TransportInitFailed` (R125, U4). -/
  freeTcfg : Nat → BitVec 16
  /-- `IDX` after an operation (R14, U13). -/
  freeIdx : Nat → BitVec 5
  /-- `CH4` after an operation (R14, U13). -/
  freeCh4 : Nat → Four
  /-- `WIN` after an operation (R14, U13). -/
  freeWin : Nat → BitVec 8
  /-- `LEN` after an operation (R14, U13). -/
  freeLen : Nat → BitVec 9
  /-- Which of the bytes a changed `TXT` cell has held a read returns (R66, U14). -/
  freePick : Nat → Nat

namespace Config

/-- `N_CH` before its range 1..256 is imposed. OPEN in R3 (D12). -/
opaque nChFree : Nat
/-- `CH_DOM[ch]` before its range is imposed. OPEN in R3 (D12). -/
opaque chDomFree : Nat → Nat
/-- `BUS_FREQ[dom]` before its range is imposed. OPEN in R3 (D12). -/
opaque busFreqFree : Nat → Nat
/-- `TARGET_FREQ` before its range is imposed. OPEN in R3 (D12). -/
opaque targetFreqFree : Nat
/-- `DISP_CH` before its range is imposed. OPEN in R3 (D12). -/
opaque dispChFree : Nat
/-- `GLYPH_COUNT` before its range 33..256 is imposed. OPEN in R3. -/
opaque glyphCountFree : Nat
/-- The glyph bytes other than the space character's. OPEN in R3 (N8). -/
opaque glyphFree : Nat → Nat → Byte
/-- How far `T_SETTLE_US` exceeds its lower bound. OPEN in R3 (D16). -/
opaque settleExtra : Nat
/-- How far `T_POST_US` exceeds its lower bound. OPEN in R3 (D16). -/
opaque postExtra : Nat
/-- How far `T_RESET_MS` exceeds its lower bound. OPEN in R3 (D16). -/
opaque resetExtra : Nat
/-- `TX_TIMEOUT`. OPEN in R3 (D21). -/
opaque txTimeoutFree : Nat
/-- `PEAK_FIXED`. OPEN in R3 (D22). -/
opaque peakFixedFree : BitVec 2
/-- `WAKE_S`. OPEN in R3 (C6, D22). -/
opaque wakeSFree : BitVec 1
/-- `FMT_FLOAT`. OPEN in R3 (D26). -/
opaque fmtFloatFree : Word → Four
/-- `FMT_ERR`. OPEN in R3 (D26). -/
opaque fmtErrFree : Word → Four

/-- Free value: the status of draw number `n` (R31, D21). -/
opaque freeStatus : Nat → Status
/-- Free value: `TCFG[ch]` after `TransportInitFailed` (U4). -/
opaque freeTcfg : Nat → BitVec 16
/-- Free value: `IDX` after an operation (U13). -/
opaque freeIdx : Nat → BitVec 5
/-- Free value: `CH4` after an operation (U13). -/
opaque freeCh4 : Nat → Four
/-- Free value: `WIN` after an operation (U13). -/
opaque freeWin : Nat → BitVec 8
/-- Free value: `LEN` after an operation (U13). -/
opaque freeLen : Nat → BitVec 9
/-- Free value: old or new byte of a `TXT` cell changed while `BUSY` (U14). -/
opaque freePick : Nat → Nat

end Config
end Sys2Proof
end

