-- ==== Sys2Proof/Syntax.lean ====
section
/-! DEFINITION. The operations of the block, one constructor per row of the opcode map (R71). -/

namespace Sys2Proof

/-- A decoded command. The operands are the operand fields that the operation uses (R72 to R76);
the bits it does not use are gone (R77). -/
inductive Instr where
  /-- `SELDIV bus, target`: `A`, `B` (R72, R100). -/
  | seldiv (bus target : Word)
  /-- `CONFIGURE ch, pp`: `A`, `B`, each compared whole (R73, R120). -/
  | configure (ch pp : Word)
  /-- `WRCTL pwm, peak, sleep`: `A[7:0]`, `A[15:8]`, `A[16]` (R75, R150). -/
  | wrctl (pwm peak : Byte) (sleep : BitVec 1)
  /-- `WRGLYPH c0, c1, c2, c3`: the bytes of `A`, highest first (R74, R151). -/
  | wrglyph (c0 c1 c2 c3 : Byte)
  /-- `CLEAR` (R152). -/
  | clear
  /-- `INIT pp`: `A`, compared whole (R76, R171). -/
  | init (pp : Word)
  /-- `SCROLL base`: `A[7:0]` (R76, R175). -/
  | scroll (base : BitVec 8)
  /-- `RENDER_INT i`: `A` as two's complement (R76, R180). -/
  | renderInt (i : Word)
  /-- `RENDER_FLOAT bits`: `A` uninterpreted (R76, R182). -/
  | renderFloat (bits : Word)
  /-- `RENDER_ERR code`: `A` uninterpreted (R76, R183). -/
  | renderErr (code : Word)
  deriving DecidableEq, Repr

end Sys2Proof
end

