-- ==== Sys2Proof/WellFormed.lean ====
section
/-! DEFINITION. Well-formedness: of an instruction (every operand value the fields can hold is a
legal encoding, R70, R77) and of a parameter record (the constraints of R3). -/

namespace Sys2Proof

/-- Every value of every operand field encodes (R70, R77): an operand outside an operation's legal
range, such as a polarity/phase code of 4, is an error of the run (R200), not of the encoding. So no
constructor carries a check. -/
def Instr.wellFormed : Instr → Bool
  | .seldiv _ _ => true
  | .configure _ _ => true
  | .wrctl _ _ _ => true
  | .wrglyph _ _ _ _ => true
  | .clear => true
  | .init _ => true
  | .scroll _ => true
  | .renderInt _ => true
  | .renderFloat _ => true
  | .renderErr _ => true

/-- The prescaler table is strictly increasing by divisor (R3, R41). -/
def prescIncreasing : List PrescEntry → Bool
  | [] => true
  | [_] => true
  | e :: f :: rest => e.div < f.div && prescIncreasing (f :: rest)

/-- No two entries share a hardware code (R84, U8). -/
def prescCodesDistinct : List PrescEntry → Bool
  | [] => true
  | e :: rest => rest.all (fun f => e.code ≠ f.code) && prescCodesDistinct rest

/-- The constraints R3 puts on the prescaler table. -/
def Params.prescOk (p : Params) : Bool :=
  !p.presc.isEmpty && p.presc.all (fun e => 1 ≤ e.div) && prescIncreasing p.presc &&
    prescCodesDistinct p.presc

/-- The constraints R3 puts on channels and clocks. -/
def Params.channelsOk (p : Params) : Bool :=
  1 ≤ p.nCh && p.nCh ≤ 256 && p.dispCh < p.nCh && (List.range p.nCh).all (fun ch => p.chDom ch < p.nDom) &&
    (List.range p.nDom).all (fun d => 1 ≤ p.busFreq d && p.busFreq d < 2 ^ 32) &&
    1 ≤ p.targetFreq && p.targetFreq < 2 ^ 32

/-- The constraints R3 and R48 put on the glyph table. -/
def Params.glyphsOk (p : Params) : Bool :=
  33 ≤ p.glyphCount && p.glyphCount ≤ 256 && (List.range 5).all (fun j => p.glyph 32 j = 0)

/-- The lower bounds R3 puts on the delays, and the fixed scroll pause. -/
def Params.delaysOk (p : Params) : Bool :=
  1 ≤ p.tSettleUs && 10 ≤ p.tPostUs && 10 ≤ p.tResetMs && p.tScrollMs = 1000

/-- The two register-select levels differ (R3). -/
def Params.levelsOk (p : Params) : Bool := p.rsCtrl ≠ p.rsDot

/-- Every constraint R3 puts on the parameters. -/
def Params.ok (p : Params) : Bool :=
  p.prescOk && p.channelsOk && p.glyphsOk && p.delaysOk && p.levelsOk

end Sys2Proof
end

