-- ==== Sys2Proof/Decode.lean ====
section
/-! DEFINITION. The decoder, total on every 72-bit command word, and the encoder, both from the opcode
map R71 and the operand layouts R72 to R76. -/

namespace Sys2Proof

/-- Why a command word is no operation. Raised by `decode`; safe: the machine reports it (R78). -/
inductive DecodeError where
  /-- `OP` is not in the table of R71. -/
  | reservedOpcode (op : BitVec 8)
  deriving DecidableEq, Repr

/-- `OP = CW[71:64]` (R70). -/
def opField (cw : CmdWord) : BitVec 8 := cw.extractLsb' 64 8

/-- `A = CW[63:32]` (R70). -/
def aField (cw : CmdWord) : Word := cw.extractLsb' 32 32

/-- `B = CW[31:0]` (R70). -/
def bField (cw : CmdWord) : Word := cw.extractLsb' 0 32

/-- The operation that `OP`, `A`, `B` name (R71 to R76). -/
def decodeFields (op : BitVec 8) (a b : Word) : Except DecodeError Instr :=
  match op.toNat with
  | 0x01 => .ok (.seldiv a b)
  | 0x02 => .ok (.configure a b)
  | 0x10 => .ok (.wrctl (a.extractLsb' 0 8) (a.extractLsb' 8 8) (a.extractLsb' 16 1))
  | 0x11 =>
    .ok (.wrglyph (a.extractLsb' 24 8) (a.extractLsb' 16 8) (a.extractLsb' 8 8) (a.extractLsb' 0 8))
  | 0x12 => .ok .clear
  | 0x20 => .ok (.init a)
  | 0x21 => .ok (.scroll (a.extractLsb' 0 8))
  | 0x22 => .ok (.renderInt a)
  | 0x23 => .ok (.renderFloat a)
  | 0x24 => .ok (.renderErr a)
  | _ => .error (.reservedOpcode op)

/-- The decoder: only `OP` selects the operation (R77), every `OP` outside R71 is reserved (R78). -/
def decode (cw : CmdWord) : Except DecodeError Instr :=
  decodeFields (opField cw) (aField cw) (bField cw)

/-- The opcode of an operation (R71). -/
def Instr.opcode : Instr → BitVec 8
  | .seldiv _ _ => 0x01
  | .configure _ _ => 0x02
  | .wrctl _ _ _ => 0x10
  | .wrglyph _ _ _ _ => 0x11
  | .clear => 0x12
  | .init _ => 0x20
  | .scroll _ => 0x21
  | .renderInt _ => 0x22
  | .renderFloat _ => 0x23
  | .renderErr _ => 0x24

/-- The word `A` of an operation, its unused bits 0 (R72 to R77). -/
def Instr.operandA : Instr → Word
  | .seldiv bus _ => bus
  | .configure ch _ => ch
  | .wrctl pwm peak sleep => 0#15 ++ sleep ++ peak ++ pwm
  | .wrglyph c0 c1 c2 c3 => c0 ++ c1 ++ c2 ++ c3
  | .clear => 0
  | .init pp => pp
  | .scroll base => 0#24 ++ base
  | .renderInt i => i
  | .renderFloat bits => bits
  | .renderErr code => code

/-- The word `B` of an operation, 0 where it is not used (R72, R73, R77). -/
def Instr.operandB : Instr → Word
  | .seldiv _ target => target
  | .configure _ pp => pp
  | .wrctl _ _ _ => 0
  | .wrglyph _ _ _ _ => 0
  | .clear => 0
  | .init _ => 0
  | .scroll _ => 0
  | .renderInt _ => 0
  | .renderFloat _ => 0
  | .renderErr _ => 0

/-- `OP ‖ A ‖ B` (R70). -/
def commandWord (op : BitVec 8) (a b : Word) : CmdWord := op ++ a ++ b

/-- The encoder: the command word of an operation, unused operand bits 0. -/
def encode (i : Instr) : CmdWord := commandWord i.opcode i.operandA i.operandB

/-- The bits of a command word that an operation's decoding reads (R72 to R77). -/
def Instr.usedBits : Instr → CmdWord
  | .seldiv _ _ => commandWord 0xFF 0xFFFFFFFF 0xFFFFFFFF
  | .configure _ _ => commandWord 0xFF 0xFFFFFFFF 0xFFFFFFFF
  | .wrctl _ _ _ => commandWord 0xFF 0x0001FFFF 0
  | .wrglyph _ _ _ _ => commandWord 0xFF 0xFFFFFFFF 0
  | .clear => commandWord 0xFF 0 0
  | .init _ => commandWord 0xFF 0xFFFFFFFF 0
  | .scroll _ => commandWord 0xFF 0x000000FF 0
  | .renderInt _ => commandWord 0xFF 0xFFFFFFFF 0
  | .renderFloat _ => commandWord 0xFF 0xFFFFFFFF 0
  | .renderErr _ => commandWord 0xFF 0xFFFFFFFF 0

/-- The opcodes of R71. -/
def definedOpcodes : List (BitVec 8) :=
  [0x01, 0x02, 0x10, 0x11, 0x12, 0x20, 0x21, 0x22, 0x23, 0x24]

/-- What the decoder reads from a command whose low `nbits` bits are `w`, numbered as
`spec/opcode_table.json` numbers them: a command is one 72-bit word (R70), so bit `k` of the table is
`CW[k]`. -/
def decodeTableWord (nbits w : Nat) : Option Instr :=
  match decode (BitVec.ofNat 72 (w % 2 ^ nbits)) with
  | .ok i => some i
  | .error _ => none

end Sys2Proof
end

