-- ==== Sys2Proof/Machine/Deployment.lean ====
section
/-! DEFINITION. The parameters the machine runs with: the values R3 fixes, and the OPEN ones under the
constraints R3 puts on them. -/

namespace Sys2Proof.Machine

/-- The prescaler table of this deployment (R3, R41, R84): `div = 2^(k+1)`, `code = k`. -/
def deployedPresc : List PrescEntry :=
  (List.range 8).map fun k => { div := 2 ^ (k + 1), code := BitVec.ofNat 3 k }

/-- The parameters of R3. -/
def deployed : Params where
  presc := deployedPresc
  nDom := 2
  nCh := 1 + Config.nChFree % 256
  chDom ch := Config.chDomFree ch % 2
  busFreq d := 1 + Config.busFreqFree d % (2 ^ 32 - 1)
  targetFreq := 1 + Config.targetFreqFree % (2 ^ 32 - 1)
  dispCh := Config.dispChFree % (1 + Config.nChFree % 256)
  glyphCount := 33 + Config.glyphCountFree % 224
  glyph c j := if c = 32 then 0 else Config.glyphFree c j
  tSettleUs := 1 + Config.settleExtra
  tPostUs := 10 + Config.postExtra
  tResetMs := 10 + Config.resetExtra
  tScrollMs := 1000
  txTimeout := Config.txTimeoutFree
  rsCtrl := 1
  rsDot := 0
  pwmFixed := 15
  peakFixed := Config.peakFixedFree
  wakeS := Config.wakeSFree
  fmtFloat := Config.fmtFloatFree
  fmtErr := Config.fmtErrFree
  freeStatus := Config.freeStatus
  freeTcfg := Config.freeTcfg
  freeIdx := Config.freeIdx
  freeCh4 := Config.freeCh4
  freeWin := Config.freeWin
  freeLen := Config.freeLen
  freePick := Config.freePick

end Sys2Proof.Machine
end

