-- ==== Sys2Proof/Machine/State.lean ====
section
/-! DEFINITION. The state of the block as plain data (R10), the events of its trace (R30), the device
shadow's data (R58), the reasons a step can stop, and the state after reset (R34). -/

namespace Sys2Proof.Machine

/-- The phase `PH` of the write sequencer, the five values the source names (R13). -/
inductive Phase where
  | idle
  | selectRegister
  | enabled
  | writing
  | latching
  deriving DecidableEq, Repr

/-- The three pin registers (R22). -/
inductive PinName where
  | ce
  | rs
  | rst
  deriving DecidableEq, Repr

/-- The errors of `STAT.ERR` (R200); codes 8 to 15 are never written, so they have no constructor
(U16). -/
inductive Err where
  | noError
  | invalidPolarity
  | unresolvableChannel
  | transportInitFailed
  | illegalCommand
  | illegalOperand
  | notConfigured
  | glyphIndex
  deriving DecidableEq, Repr

/-- The kinds of `LOG` events (R200). -/
inductive LogKind where
  | wDivLow
  | wDivHigh
  | eInvalidPolarity
  | eUnresolvableChannel
  | eTransportInitFailed
  | eIllegalCommand
  | eIllegalOperand
  | eNotConfigured
  | eGlyphIndex
  | eTxFailed
  deriving DecidableEq, Repr

/-- The warning of the Divisor Selector (R101): `low` is the clamp to the largest index (R102), `high`
the clamp to index 0 (R103). -/
inductive Warn where
  | none
  | low
  | high
  deriving DecidableEq, Repr

/-- The two register spaces of the device (R40). -/
inductive Space where
  | ctrl
  | dot
  deriving DecidableEq, Repr

/-- One event of the trace (R30). -/
inductive Event where
  /-- A pin register is written (R22, D37). -/
  | pin (name : PinName) (level : Level)
  /-- At least `n` microseconds pass (R56). -/
  | delayUs (n : Nat)
  /-- At least `n` milliseconds pass (R56). -/
  | delayMs (n : Nat)
  /-- One transmit call of one byte and the status it returned. -/
  | tx (ch : Nat) (byte : Byte) (status : Status)
  /-- One transport-init call and the status it returned. -/
  | tinit (ch : Nat) (cfg : BitVec 16) (status : Status)
  /-- The clock gate of a channel is switched on. -/
  | clkGate (ch : Nat)
  /-- The pin roles are configured (R172). -/
  | gpioCfg
  /-- One entry of the log (R217). -/
  | log (kind : LogKind)
  deriving DecidableEq, Repr

/-- The arguments of one transmit call, "`transmit(channel, bytes, timeout) -> status`" (R143, R215). -/
structure TxCall where
  ch : Nat
  byte : Byte
  timeout : Nat
  deriving DecidableEq, Repr

/-- The byte a payload place stands for: a byte as it is, or column byte `i` of the frame of the four
characters in `CH4`, `F[i]` of R85. -/
inductive Datum where
  | byte (v : Byte)
  | column (i : Nat)
  deriving DecidableEq, Repr

/-- One action of the sequencer: a statement group of an operation's pseudocode that emits at most one
event and the log entry that goes with it (C14). The list of the actions still to do is "the position
in the operation's pseudocode" of R13. -/
inductive Action where
  /-- R172. -/
  | gpioCfg
  /-- R120 line 2, R122. -/
  | gate (ch : Nat)
  /-- R120 line 4, R100: what the selector warns of. -/
  | warn (w : Warn)
  /-- R120 line 5, R124. -/
  | checkPolarity (pp : Word)
  /-- R120 lines 6 and 7, R125. -/
  | tinit (ch : Nat) (cfg : BitVec 16)
  /-- R100, `RES <- k`. -/
  | setRes (k : Nat)
  /-- R140 step 1: `PH <- SelectRegister`, `RS` written. -/
  | selectSpace (sp : Space)
  | delayUs (n : Nat)
  | delayMs (n : Nat)
  /-- R140 step 2: `CE <- 0`, `PH <- Enabled`. -/
  | openWindow
  /-- R140 step 3: `PH <- Writing`, `IDX <- 0`. -/
  | startData
  /-- R140 step 3, payload byte `i`. -/
  | send (i : Nat) (d : Datum)
  /-- R140 step 5: `CE <- 1`, `PH <- Latching`. -/
  | closeWindow
  /-- R140 step 6: the dummy byte, `PH <- Idle`. -/
  | dummy
  /-- R171 line 3, R173. -/
  | driveRst (v : Level)
  /-- R151: `CH4 <- [c0, c1, c2, c3]`. -/
  | loadChars (f : Four)
  /-- R175: `LEN <- StrLen(b)`. -/
  | setLen (n : Nat)
  /-- R175: the frame loop's `WIN`. -/
  | setWin (w : Nat)
  /-- R175: `CH4` from `TXT`: `n` characters from address `a`, then spaces (R66, R177, R178). -/
  | loadText (a n : Nat)
  deriving DecidableEq, Repr

/-- Memory by address (or channel) in one canonical form: addresses strictly rising, no entry equal to
what an unlisted address holds. -/
abbrev Sparse (w : Nat) := List (Nat × BitVec w)

/-- The text memory `TXT` (R44): a list of `Host.Cell`. -/
abbrev Memory := List Host.Cell

/-- What the host does besides presenting commands. -/
inductive HostAct where
  /-- The host writes a byte of `TXT` (R44). -/
  | writeTxt (a : BitVec 8) (b : Byte)
  /-- The reset input (R240). -/
  | reset
  deriving DecidableEq, Repr

/-- One pending input of the host: it lands after `wait` more actions of the sequencer (or idle steps),
counted from the input before it. -/
structure HostInput where
  wait : Nat
  act : HostAct
  deriving DecidableEq, Repr

/-- The device-side shadow (R58): what the trace says of the display device. `none` is the spec's
"unknown". The three `Settled`/`Held` flags record the delays that R59, R61 and R64 ask for. -/
structure Shadow where
  ce : Level
  rs : Option Level
  rst : Level
  sel : Space
  /-- The bytes shifted in since the last fall of `CE`; `none` after a failed byte (R63). -/
  sr : Option (List Byte)
  /-- The window's space and bytes that wait for their latch strobe (R61). -/
  pend : Option (Space × Option (List Byte))
  ctrl : Option Byte
  dot : Option (List Byte)
  bad : Bool
  /-- A `DELAY_US(n)`, `n >= 1`, stands after the last `PIN(RS, _)` (R59). -/
  rsSettled : Bool
  /-- A `DELAY_US(n)`, `n >= 10`, stands after the last `TX` (R61). -/
  txSettled : Bool
  /-- A `DELAY_MS(n)`, `n >= 10`, stands after the last `PIN(RST, 0)` (R64). -/
  rstHeld : Bool
  deriving DecidableEq, Repr

/-- The shadow before any event (R58). The rule gives `sel` no value before the first fall of CE; `ctrl` is the
model's own (DESIGN CHOICE, log 28), and the first fall overwrites it before anything reads it. -/
def Shadow.start : Shadow where
  ce := 1
  rs := none
  rst := 1
  sel := .ctrl
  sr := some []
  pend := none
  ctrl := none
  dot := none
  bad := false
  rsSettled := false
  txSettled := false
  rstHeld := false

/-- Why the machine stops with a fault. -/
inductive Fault where
  /-- A frame of `SCROLL` looks up a character code with no glyph, which it can only do when the host
  wrote `TXT` while `BUSY = 1` (U14: "the lookup is **fault**"). Raised by `loadText`. Safe: the spec
  gives no effect. -/
  | glyphPastTable (code : Byte)
  deriving DecidableEq, Repr

/-- Why the machine refuses an instruction. -/
inductive Refusal where
  /-- The instruction has no meaning yet. Raised by `exec`'s arms only. Safe. -/
  | notModelled (mnemonic : String)
  deriving DecidableEq, Repr

/-- The state of KBSD (R10), then what belongs to the host, then the model's own fields. -/
@[ext]
structure State where
  /-- The command latches `OP`, `A`, `B` (R11). -/
  op : BitVec 8
  a : Word
  b : Word
  /-- `BUSY` (R12). -/
  busy : Bool
  /-- `PH` (R13). -/
  ph : Phase
  /-- `IDX`, `CH4`, `WIN`, `LEN` (R14). -/
  idx : BitVec 5
  ch4 : Four
  win : BitVec 8
  len : BitVec 9
  /-- The fields of `STAT` (R15). -/
  err : Err
  warnLow : Bool
  warnHigh : Bool
  txf : Bool
  /-- `RES` (R16). -/
  res : BitVec 8
  /-- `CLKEN[ch]` by channel (R18). -/
  clken : Sparse 1
  /-- `TCFG[ch]` by channel (R19). -/
  tcfg : Sparse 16
  /-- The pin registers (R22). -/
  ce : Level
  rs : Level
  rst : Level
  /-- The trace, oldest event first (R30). -/
  trace : List Event
  /-- The position in the running operation's pseudocode (R13): the actions still to do. -/
  todo : List Action
  /-- The host's text memory `TXT` (R44). -/
  txt : Memory
  /-- The command words the host holds valid, in the order it presents them (R12, R70). -/
  port : List CmdWord
  /-- The host's other inputs still to land (R44, R240). -/
  inputs : List HostInput
  /-- Model's own: bytes of `TXT` overwritten while `BUSY = 1` (U14). -/
  stale : List Host.Cell
  /-- Model's own: collaborator answers the environment has fixed, oldest first (R31). -/
  answers : List Status
  /-- Model's own: the number of free values drawn. -/
  fresh : Nat
  /-- Model's own: the device shadow when the trace was last emptied. -/
  dev0 : Shadow
  deriving DecidableEq, Repr

/-- The state after reset (R34, R240). The registers that R34 leaves unspecified hold the values that
notes/assumptions/1.md to 5.md name. -/
def State.reset : State where
  op := 0
  a := 0
  b := 0
  busy := false
  ph := .idle
  idx := 0
  ch4 := ⟨0, 0, 0, 0⟩
  win := 0
  len := 0
  err := .noError
  warnLow := false
  warnHigh := false
  txf := false
  res := 0
  clken := []
  tcfg := []
  ce := 1
  rs := 0
  rst := 1
  trace := []
  todo := []
  txt := []
  port := []
  inputs := []
  stale := []
  answers := []
  fresh := 0
  dev0 := Shadow.start

end Sys2Proof.Machine
end

