-- ==== Sys2Proof/Machine/Flags.lean ====
section
/-! DEFINITION. The numeric codes of errors and phases, the log kinds, and the words the host or a
`TINIT` event sees: `STAT` (R15) and `TCFG` (R19). -/

namespace Sys2Proof.Machine

/-- The numeric code of a phase (R13). -/
def Phase.code : Phase → BitVec 3
  | .idle => 0
  | .selectRegister => 1
  | .enabled => 2
  | .writing => 3
  | .latching => 4

/-- The code of an error in `STAT.ERR` (R200). -/
def Err.code : Err → BitVec 4
  | .noError => 0
  | .invalidPolarity => 1
  | .unresolvableChannel => 2
  | .transportInitFailed => 3
  | .illegalCommand => 4
  | .illegalOperand => 5
  | .notConfigured => 6
  | .glyphIndex => 7

/-- The log kind that goes with an error (R200); there is none for "no error". -/
def Err.logKind : Err → Option LogKind
  | .noError => none
  | .invalidPolarity => some .eInvalidPolarity
  | .unresolvableChannel => some .eUnresolvableChannel
  | .transportInitFailed => some .eTransportInitFailed
  | .illegalCommand => some .eIllegalCommand
  | .illegalOperand => some .eIllegalOperand
  | .notConfigured => some .eNotConfigured
  | .glyphIndex => some .eGlyphIndex

/-- The event `raise` emits (R206). -/
def Err.logEvents (e : Err) : List Event :=
  match e.logKind with
  | none => []
  | some k => [.log k]

/-- The source's `ConfigError` as a host reads it: "`ERR` is 1 or 2" (R202). -/
def Err.isConfigError (e : Err) : Bool := e.code = 1 || e.code = 2

/-- The log kind of a warning (R200, R201). -/
def Warn.logEvents : Warn → List Event
  | .none => []
  | .low => [.log .wDivLow]
  | .high => [.log .wDivHigh]

/-- One bit from a Bool. -/
def bit (x : Bool) : BitVec 1 := BitVec.ofBool x

/-- `STAT` as the host reads it (R15): bit 0 `BUSY`, 3:1 zero, 7:4 `ERR`, 8 `WARN_LOW`, 9 `WARN_HIGH`,
10 `TXF`, 31:11 zero. -/
def State.stat (s : State) : Word :=
  0#21 ++ bit s.txf ++ bit s.warnHigh ++ bit s.warnLow ++ s.err.code ++ 0#3 ++ bit s.busy

/-- The fields of a `TCFG` word (R19). -/
def cfgCpha (c : BitVec 16) : BitVec 1 := c.extractLsb' 0 1
def cfgCpol (c : BitVec 16) : BitVec 1 := c.extractLsb' 1 1
def cfgMstr (c : BitVec 16) : BitVec 1 := c.extractLsb' 2 1
def cfgBr (c : BitVec 16) : BitVec 3 := c.extractLsb' 3 3
def cfgHwcs (c : BitVec 16) : BitVec 1 := c.extractLsb' 6 1
def cfgLsbf (c : BitVec 16) : BitVec 1 := c.extractLsb' 7 1
def cfgW16 (c : BitVec 16) : BitVec 1 := c.extractLsb' 8 1
def cfgValid (c : BitVec 16) : BitVec 1 := c.extractLsb' 9 1
def cfgZero (c : BitVec 16) : BitVec 6 := c.extractLsb' 10 6

/-- The `VALID` bit of a `TCFG` word (R19). -/
def validBit : BitVec 16 := 0x0200

/-- The fields of `TCFG` below `VALID`, which `TransportInitFailed` leaves unspecified (R125); bits
15:10 stay zero (R19). -/
def unspecifiedFields : BitVec 16 := 0x01FF

/-- A `TCFG` word from its fields (R19). -/
def cfgWord (valid w16 lsbf hwcs : BitVec 1) (br : BitVec 3) (mstr cpol cpha : BitVec 1) : BitVec 16 :=
  0#6 ++ valid ++ w16 ++ lsbf ++ hwcs ++ br ++ mstr ++ cpol ++ cpha

/-- The fixed settings of R20 and R123, and a divisor code of the table. -/
def cfgFixed (p : Params) (c : BitVec 16) : Bool :=
  cfgMstr c = 1 && cfgHwcs c = 0 && cfgLsbf c = 0 && cfgW16 c = 0 && p.presc.any (fun e => e.code = cfgBr c)

end Sys2Proof.Machine
end

