-- ==== Sys2Proof/Machine/Memory.lean ====
section
/-! DEFINITION. Memory: the one read and the one write of the sparse form, for `TXT` (R44), `CLKEN` (R18)
and `TCFG` (R19), and the canonical form they keep. -/

namespace Sys2Proof.Machine

/-- What an unlisted address holds: 0, which is the reset value of `CLKEN` and `TCFG` (R34), and for
`TXT` the choice of notes/assumptions/5.md. -/
def Sparse.unlisted (w : Nat) : BitVec w := 0#w

/-- One cell of a sparse memory. -/
def Sparse.read {w : Nat} : Sparse w → Nat → BitVec w
  | [], _ => Sparse.unlisted w
  | (k, v) :: m, a => if k = a then v else Sparse.read m a

/-- Write one cell and keep the canonical form: the value an unlisted address holds removes the entry. -/
def Sparse.write {w : Nat} : Sparse w → Nat → BitVec w → Sparse w
  | [], a, v => if v = Sparse.unlisted w then [] else [(a, v)]
  | (k, x) :: m, a, v =>
    if a < k then (if v = Sparse.unlisted w then (k, x) :: m else (a, v) :: (k, x) :: m)
    else if a = k then (if v = Sparse.unlisted w then m else (a, v) :: m)
    else (k, x) :: Sparse.write m a v

/-- The canonical form: addresses strictly rising, no entry equal to what an unlisted address holds. -/
def Sparse.wf {w : Nat} : Sparse w → Bool
  | [] => true
  | (k, v) :: m => v ≠ Sparse.unlisted w && m.all (fun e => k < e.1) && Sparse.wf m

/-- `MemRead(TXT, a, 1)` (R44). -/
def Memory.read (m : Memory) (a : Nat) : Byte := Sparse.read m a

/-- A byte of `TXT` written by the host (R44). -/
def Memory.write (m : Memory) (a : Nat) (v : Byte) : Memory := Sparse.write m a v

/-- `TXT` in canonical form, with no entry outside its 256 addresses (R44). -/
def Memory.wf (m : Memory) : Bool := Sparse.wf m && m.all (fun e => e.1 < 256)

end Sys2Proof.Machine
end

