-- ==== Sys2Proof/Machine/Operands.lean ====
section
/-! DEFINITION. Every operand form and every computed operand: the divisor selection (R101), the
polarity/phase map (R83), the control byte (R80, R81), frames and glyph reads (R43, R85), strings
(R47) and the integer format (R181). -/

namespace Sys2Proof.Machine

/-! ### The Divisor Selector -/

/-- The divisors `T[0], T[1], ...` of a prescaler table (R101). -/
def divisors (presc : List PrescEntry) : List Nat := presc.map PrescEntry.div

/-- The one `k` in `1 .. N-2` with `T[k-1] < want <= T[k]` (R101, R104). -/
def searchDivisor (T : List Nat) (want : Nat) : Nat :=
  match (List.range (T.length - 1)).find? (fun k => 1 ≤ k && T.getD (k - 1) 0 < want && want ≤ T.getD k 0) with
  | some k => k
  | none => 0

/-- `SelDiv(bus, target)` over the table `T` (R101), its four cases in the order the rule writes them. -/
def selDiv (T : List Nat) (bus target : Nat) : Nat × Warn :=
  let want := bus / target
  if 2 ≤ T.length ∧ want > T.getD (T.length - 2) 0 then (T.length - 1, .low)
  else if want ≤ T.getD 0 0 then (0, .high)
  else if T.length = 1 then (0, .low)
  else (searchDivisor T want, .none)

/-- `MemRead(PRESC, k, 1)` (R41); no rule reads past the table. -/
def readPresc (p : Params) (k : Nat) : Option PrescEntry := p.presc[k]?

/-- The hardware divisor code of entry `k` (R84). -/
def prescCode (p : Params) (k : Nat) : BitVec 3 :=
  match readPresc p k with
  | some e => e.code
  | none => 0

/-! ### Polarity and phase -/

/-- `PPMAP`: `(CPHA, CPOL)` of a polarity/phase code; `none` for 4 and above (R83, R124). -/
def ppMap (pp : Word) : Option (BitVec 1 × BitVec 1) :=
  match pp.toNat with
  | 0 => some (0, 0)
  | 1 => some (0, 1)
  | 2 => some (1, 1)
  | 3 => some (1, 0)
  | _ => none

/-- What the selector is asked for a channel (R120 line 4, R123). -/
def channelDivisor (p : Params) (ch : Nat) : Nat × Warn :=
  selDiv (divisors p.presc) (p.busFreq (p.chDom ch)) p.targetFreq

/-- The staged `cfg` of R120 lines 3 to 5, `VALID = 0` (R125). -/
def stagedCfg (p : Params) (ch : Nat) (pp : Word) : BitVec 16 :=
  let m := (ppMap pp).getD (0, 0)
  cfgWord 0 0 0 0 (prescCode p (channelDivisor p ch).1) 1 m.2 m.1

/-! ### The control byte -/

/-- The control byte of R80 from the operands of `WRCTL` (R81): bit 7 zero, `S`, `I`, `P`. -/
def controlByte (pwm peak : Byte) (sleep : BitVec 1) : Byte :=
  0#1 ++ sleep ++ peak.extractLsb' 0 2 ++ pwm.extractLsb' 0 4

/-- The operands with which `INIT` calls `WriteControl` (R171, R174). -/
def initControlByte (p : Params) : Byte :=
  controlByte (0#4 ++ p.pwmFixed) (0#6 ++ p.peakFixed) p.wakeS

/-! ### Frames -/

/-- `MemRead(GLYPH, addr, 1)`: the linear address is `5c + j` (R43). -/
def readGlyph (p : Params) (addr : Nat) : Byte := p.glyph (addr / 5) (addr % 5)

/-- A character code has a glyph (R46). -/
def hasGlyph (p : Params) (c : Byte) : Bool := c.toNat < p.glyphCount

/-- All four codes have a glyph (R151). -/
def haveGlyphs (p : Params) (f : Four) : Bool :=
  hasGlyph p f.c0 && hasGlyph p f.c1 && hasGlyph p f.c2 && hasGlyph p f.c3

/-- `F[i]` of R85: column `i mod 5` of character `i div 5`. -/
def frameByte (p : Params) (f : Four) (i : Nat) : Byte :=
  readGlyph p (5 * (f.get (i / 5)).toNat + i % 5)

/-- The frame of four characters (R85). -/
def frame (p : Params) (f : Four) : List Byte := (List.range 20).map (frameByte p f)

/-- The clear frame (R85). -/
def clearFrame : List Byte := List.replicate 20 0

/-- The space character (R86). -/
def space : Byte := 32

/-! ### Strings -/

/-- `StrLen(b)`: the least `n` with `b + n <= 255` and `TXT[b+n] = 0x00`, if there is one (R47). -/
def strLen (m : Memory) (b : Nat) : Option Nat :=
  (List.range (256 - b)).find? (fun n => Memory.read m (b + n) = 0)

/-- Every character of a string has a glyph (R175). -/
def stringHasGlyphs (p : Params) (m : Memory) (b n : Nat) : Bool :=
  (List.range n).all (fun i => hasGlyph p (Memory.read m (b + i)))

/-! ### The integer format -/

/-- The decimal digits of `n`, most significant first, without leading zeros; at most `fuel` of them. -/
def decimalDigits : Nat → Nat → List Nat
  | 0, _ => []
  | fuel + 1, n => if n < 10 then [n] else decimalDigits fuel (n / 10) ++ [n % 10]

/-- The character code of a decimal digit (R86). -/
def digitCode (d : Nat) : Byte := BitVec.ofNat 8 (48 + d)

/-- `s` with zeros put in front until it has at least `w` characters (R181). -/
def zeroPad (w : Nat) (s : List Byte) : List Byte := List.replicate (w - s.length) 48 ++ s

/-- The string `t` of R181. -/
def intText (i : Int) : List Byte :=
  let s := (decimalDigits 10 i.natAbs).map digitCode
  if 0 ≤ i then zeroPad 4 s else 45 :: zeroPad 3 s

/-- The first four characters of a string of at least four. -/
def firstFour (t : List Byte) : Four := ⟨t.getD 0 0, t.getD 1 0, t.getD 2 0, t.getD 3 0⟩

/-- `FMT_INT(i)` (R181): ten digits suffice for a 32-bit magnitude. -/
def fmtInt (i : Int) : Four := firstFour (intText i)

end Sys2Proof.Machine
end

