-- ==== Sys2Proof/Machine/Ops.lean ====
section
/-! DEFINITION. The named operations over the state: events, pins, draws, transmit calls, accepting a
command, ending an operation, and `raise` (R206), the block's one way of taking an exception. There is no
return from one: an error is over when it is recorded (R209). -/

namespace Sys2Proof.Machine

/-- `emit E`: append to the trace, which is only ever appended to (R30). -/
def emit (e : Event) (s : State) : State := { s with trace := s.trace ++ [e] }

/-- Append several events. -/
def emitAll (es : List Event) (s : State) : State := { s with trace := s.trace ++ es }

/-- `PH <- v` (R13). -/
def setPhase (v : Phase) (s : State) : State := { s with ph := v }

/-- Write a pin register and emit its event, also when the level does not change (R22, D37). -/
def drivePin (n : PinName) (v : Level) (s : State) : State :=
  match n with
  | .ce => emit (.pin .ce v) { s with ce := v }
  | .rs => emit (.pin .rs v) { s with rs := v }
  | .rst => emit (.pin .rst v) { s with rst := v }

/-- The level of RS that selects a space (R22). -/
def spaceLevel (p : Params) : Space → Level
  | .ctrl => p.rsCtrl
  | .dot => p.rsDot

/-- The next collaborator answer: one the environment has fixed, or a free value (R31). -/
def nextAnswer (p : Params) (s : State) : Status :=
  match s.answers with
  | [] => p.freeStatus s.fresh
  | st :: _ => st

/-- The state after that answer is given. -/
def useAnswer (s : State) : State :=
  match s.answers with
  | [] => { s with fresh := s.fresh + 1 }
  | _ :: rest => { s with answers := rest }

/-- What a failed `TX` adds: `STAT.TXF` and a log entry right after it (R148). -/
def noteStatus (st : Status) (s : State) : State :=
  match st with
  | .ok => s
  | .fail => emit (.log .eTxFailed) { s with txf := true }

/-- One transmit call of one byte (R143, R148). The timeout appears in no event (R3). -/
def transmit (p : Params) (call : TxCall) (s : State) : State :=
  noteStatus (nextAnswer p s) (emit (.tx call.ch call.byte (nextAnswer p s)) (useAnswer s))

/-- A transmit call on the display's channel. -/
def transmitDisplay (p : Params) (b : Byte) (s : State) : State :=
  transmit p { ch := p.dispCh, byte := b, timeout := p.txTimeout } s

/-- `TCFG[ch].VALID = 1`. -/
def channelValid (s : State) (ch : Nat) : Bool := cfgValid (Sparse.read s.tcfg ch) = 1

/-- The warning of a selection: its flag and its log entry (R201). -/
def noteWarning (w : Warn) (s : State) : State :=
  match w with
  | .none => s
  | .low => emit (.log .wDivLow) { s with warnLow := true }
  | .high => emit (.log .wDivHigh) { s with warnHigh := true }

/-- A command is accepted (R11, R17, R70): the latches written, `BUSY` set, the result fields of `STAT`
cleared, in one step. -/
def accept (cw : CmdWord) (s : State) : State :=
  { s with
    op := opField cw
    a := aField cw
    b := bField cw
    busy := true
    err := .noError
    warnLow := false
    warnHigh := false
    txf := false }

/-- An operation ends: `BUSY <- 0` (R12), and the transient registers are unspecified from here on (R14,
U13), so each takes a free value. -/
def endOperation (p : Params) (s : State) : State :=
  { s with
    busy := false
    todo := []
    stale := []
    idx := p.freeIdx s.fresh
    ch4 := p.freeCh4 s.fresh
    win := p.freeWin s.fresh
    len := p.freeLen s.fresh
    fresh := s.fresh + 1 }

/-- `STAT.ERR <- code(E) ; emit LOG(kind(E))` (R206). -/
def recordError (e : Err) (s : State) : State := emitAll e.logEvents { s with err := e }

/-- `raise E` (R206): the error is recorded and the operation ends; nothing is saved, nothing rolled
back. -/
def raise (p : Params) (e : Err) (s : State) : State := endOperation p (recordError e s)

/-- A reserved opcode (R78, R204): `IllegalCommand`, one log entry, `BUSY` back to 0, no other state. -/
def illegalCommand (s : State) : State := { recordError .illegalCommand s with busy := false }

/-- The bytes a cell of `TXT` has held since the running command was accepted, the present one first
(U14). -/
def heldBytes (s : State) (a : Nat) : List Byte :=
  Memory.read s.txt a :: (s.stale.filter (fun e => e.1 = a)).map Prod.snd

/-- One read of `TXT` for a frame: the byte itself, or, of a byte the host changed while `BUSY`, any of
the bytes it has held (R66, U14). -/
def readText (p : Params) (a : Nat) (s : State) : Byte × State :=
  match heldBytes s a with
  | [v] => (v, s)
  | vs => (vs.getD (p.freePick s.fresh % vs.length) 0, { s with fresh := s.fresh + 1 })

/-- Character `i` of the frame at `a` that has `n` characters of its own: `TXT[a+i]`, or the space
character from place `n` on (R177, R178). -/
def frameChar (p : Params) (a n i : Nat) (s : State) : Byte × State :=
  if i < n then readText p (a + i) s else (space, s)

/-- The four characters of a frame of `SCROLL`, read in order (R66). -/
def readFrame (p : Params) (a n : Nat) (s : State) : Four × State :=
  let r0 := frameChar p a n 0 s
  let r1 := frameChar p a n 1 r0.2
  let r2 := frameChar p a n 2 r1.2
  let r3 := frameChar p a n 3 r2.2
  (⟨r0.1, r1.1, r2.1, r3.1⟩, r3.2)

/-- The first code of four that has no glyph. -/
def badCode (p : Params) (f : Four) : Option Byte :=
  [f.c0, f.c1, f.c2, f.c3].find? (fun c => !hasGlyph p c)

end Sys2Proof.Machine
end

