-- ==== Sys2Proof/Machine/Sequencer.lean ====
section
/-! DEFINITION. The sequencer: what one action of an operation does, running a list of them, the window
procedure as such a list (R140), and how the host's other inputs land. -/

namespace Sys2Proof.Machine

/-- How one action ends: the operation goes on, an error ends it (R206), or no effect is given (U14). -/
inductive ActionResult where
  | goesOn (s : State)
  | raises (e : Err) (s : State)
  | breaks (f : Fault) (s : State)
  deriving DecidableEq, Repr

/-- The byte of a payload place (R85). -/
def datumByte (p : Params) (d : Datum) (s : State) : Byte :=
  match d with
  | .byte v => v
  | .column i => frameByte p s.ch4 i

/-- R120 line 2, R122: the gate is set and its event emitted only if it was off. -/
def enableGate (ch : Nat) (s : State) : State :=
  if Sparse.read s.clken ch = 0 then emit (.clkGate ch) { s with clken := Sparse.write s.clken ch 1 } else s

/-- R120 line 7, R125: the staged value, with `VALID` set, becomes `TCFG[ch]`. -/
def commitCfg (ch : Nat) (cfg : BitVec 16) (s : State) : State :=
  { s with tcfg := Sparse.write s.tcfg ch (cfg ||| validBit) }

/-- R125, U4: `VALID <- 0`, the other fields unspecified. -/
def spoilCfg (p : Params) (ch : Nat) (s : State) : State :=
  { s with
    tcfg := Sparse.write s.tcfg ch (p.freeTcfg s.fresh &&& unspecifiedFields)
    fresh := s.fresh + 1 }

/-- R120 lines 6 and 7: the transport-init call and what its answer leads to. -/
def transportInit (p : Params) (ch : Nat) (cfg : BitVec 16) (s : State) : ActionResult :=
  let called := emit (.tinit ch cfg (nextAnswer p s)) (useAnswer s)
  match nextAnswer p s with
  | .ok => .goesOn (commitCfg ch cfg called)
  | .fail => .raises .transportInitFailed (spoilCfg p ch called)

/-- R175: the characters of a frame into `CH4`; a code past the table has no lookup (U14). -/
def loadFrame (p : Params) (a n : Nat) (s : State) : ActionResult :=
  let r := readFrame p a n s
  match badCode p r.1 with
  | none => .goesOn { r.2 with ch4 := r.1 }
  | some c => .breaks (.glyphPastTable c) r.2

/-- What one action does. -/
def doAction (p : Params) (a : Action) (s : State) : ActionResult :=
  match a with
  | .gpioCfg => .goesOn (emit .gpioCfg s)
  | .gate ch => .goesOn (enableGate ch s)
  | .warn w => .goesOn (noteWarning w s)
  | .checkPolarity pp => if 4 ≤ pp.toNat then .raises .invalidPolarity s else .goesOn s
  | .tinit ch cfg => transportInit p ch cfg s
  | .setRes k => .goesOn { s with res := BitVec.ofNat 8 k }
  | .selectSpace sp => .goesOn (drivePin .rs (spaceLevel p sp) (setPhase .selectRegister s))
  | .delayUs n => .goesOn (emit (.delayUs n) s)
  | .delayMs n => .goesOn (emit (.delayMs n) s)
  | .openWindow => .goesOn (setPhase .enabled (drivePin .ce 0 s))
  | .startData => .goesOn { setPhase .writing s with idx := 0 }
  | .send i d => .goesOn { transmitDisplay p (datumByte p d s) s with idx := BitVec.ofNat 5 (i + 1) }
  | .closeWindow => .goesOn (setPhase .latching (drivePin .ce 1 s))
  | .dummy => .goesOn (setPhase .idle (transmitDisplay p 0 s))
  | .driveRst v => .goesOn (drivePin .rst v s)
  | .loadChars f => .goesOn { s with ch4 := f }
  | .setLen n => .goesOn { s with len := BitVec.ofNat 9 n }
  | .setWin w => .goesOn { s with win := BitVec.ofNat 8 w }
  | .loadText addr n => loadFrame p addr n s

/-- An input of the host is due. -/
def inputDue (s : State) : Bool :=
  match s.inputs with
  | ⟨0, _⟩ :: _ => true
  | _ => false

/-- One action (or one idle step) passes for the input that is next. -/
def passTime (s : State) : State :=
  match s.inputs with
  | ⟨n + 1, act⟩ :: rest => { s with inputs := ⟨n, act⟩ :: rest }
  | _ => s

/-- Run actions in order to the end of the operation, to an error, or to where an input of the host is
due; there the rest of the list is the position in the pseudocode (R13) and `BUSY` stays 1. -/
def runScript (p : Params) : List Action → State → State × Option Fault
  | [], s => (endOperation p s, none)
  | a :: rest, s =>
    if inputDue s then ({ s with todo := a :: rest }, none)
    else
      match doAction p a (passTime s) with
      | .goesOn t => runScript p rest t
      | .raises e t => (raise p e t, none)
      | .breaks f t => (t, some f)

/-- The outcome of a run. -/
def runOutcome (r : State × Option Fault) : Host.Outcome State Fault Refusal :=
  match r.2 with
  | none => .next r.1
  | some f => .fault f

/-- An operation: its checks have raised an error, or it runs its actions. Only the frames of `SCROLL`
can break a run (Laws/Ops.lean), so every other operation's run is its state. -/
def perform (p : Params) (plan : Except Err (List Action)) (s : State) : State × Option Fault :=
  match plan with
  | .error e => (raise p e s, none)
  | .ok script => runScript p script s

/-! ### The window procedure -/

/-- Step 3 of R140: one transmit call per payload byte, `IDX` counting from `i`. -/
def sendFrom : Nat → List Datum → List Action
  | _, [] => []
  | i, d :: ds => .send i d :: sendFrom (i + 1) ds

/-- `WINDOW(space, payload)` (R140). -/
def window (p : Params) (sp : Space) (data : List Datum) : List Action :=
  [.selectSpace sp, .delayUs p.tSettleUs, .openWindow, .startData] ++ sendFrom 0 data ++
    [.delayUs p.tPostUs, .closeWindow, .dummy]

/-- The payload that is the frame of the characters in `CH4` (R151). -/
def frameData : List Datum := (List.range 20).map Datum.column

/-- `WINDOW(ctrl, [ctl])` (R150). -/
def controlWindow (p : Params) (ctl : Byte) : List Action := window p .ctrl [.byte ctl]

/-- `WINDOW(dot, F)` (R151). -/
def frameWindow (p : Params) : List Action := window p .dot frameData

/-- `WINDOW(dot, 20 × 0x00)` (R152). -/
def clearWindow (p : Params) : List Action := window p .dot (clearFrame.map Datum.byte)

/-- Lines 2 to 7 of R120 for a channel that exists. -/
def configureScript (p : Params) (ch : Nat) (pp : Word) : List Action :=
  [.gate ch, .warn (channelDivisor p ch).2, .checkPolarity pp, .tinit ch (stagedCfg p ch pp)]

/-- `WriteGlyphs(c0, c1, c2, c3)` (R151): its checks, in the order of R208, and its actions. -/
def planGlyphs (p : Params) (f : Four) (s : State) : Except Err (List Action) :=
  if !channelValid s p.dispCh then .error .notConfigured
  else if !haveGlyphs p f then .error .glyphIndex
  else .ok (.loadChars f :: frameWindow p)

/-! ### The host's other inputs -/

/-- The host writes a byte of `TXT`; while `BUSY = 1` the byte it replaces is kept, because a later frame
may still see it (R44, R66). -/
def hostWrite (a : BitVec 8) (v : Byte) (s : State) : State :=
  let old := Memory.read s.txt a.toNat
  { s with
    txt := Memory.write s.txt a.toNat v
    stale := if s.busy then (a.toNat, old) :: s.stale else s.stale }

end Sys2Proof.Machine
end

