-- ==== Sys2Proof/Machine/Composite.lean ====
section
/-! DEFINITION. The composite operations: `INIT` (R171), `SCROLL` (R175), `RENDER_INT` (R180),
`RENDER_FLOAT` (R182), `RENDER_ERR` (R183). -/

namespace Sys2Proof.Machine

/-- R171, lines 1 to 5. `UnresolvableChannel` cannot arise because `DISP_CH < N_CH`, and `NotConfigured`
cannot arise in the two windows because line 2 has succeeded. -/
def initScript (p : Params) (pp : Word) : List Action :=
  [.gpioCfg] ++ configureScript p p.dispCh pp ++ [.driveRst 0, .delayMs p.tResetMs, .driveRst 1] ++
    clearWindow p ++ controlWindow p (initControlByte p)

def init (p : Params) (pp : Word) (s : State) : State := (perform p (.ok (initScript p pp)) s).1

/-- One frame of `SCROLL`: `n` characters from address `a`, then spaces (R177, R178). -/
def scrollFrame (p : Params) (a n : Nat) : List Action := .loadText a n :: frameWindow p

/-- Frame `w` of a long string, and the pause unless it is the last (R177, R179). -/
def scrollStep (p : Params) (b len w : Nat) : List Action :=
  .setWin w :: scrollFrame p (b + w) 4 ++ (if w < len - 4 then [.delayMs p.tScrollMs] else [])

/-- R175 for a string of length `len` at `b`. -/
def scrollScript (p : Params) (b len : Nat) : List Action :=
  .setLen len ::
    (if len ≤ 3 then scrollFrame p b len else (List.range (len - 3)).flatMap (scrollStep p b len))

/-- R175, its checks in the order of R208; the string is read once, when the command is accepted (R66,
R176). -/
def planScroll (p : Params) (base : BitVec 8) (s : State) : Except Err (List Action) :=
  if !channelValid s p.dispCh then .error .notConfigured
  else
    match strLen s.txt base.toNat with
    | none => .error .illegalOperand
    | some n =>
      if !stringHasGlyphs p s.txt base.toNat n then .error .glyphIndex
      else .ok (scrollScript p base.toNat n)

def scroll (p : Params) (base : BitVec 8) (s : State) : State × Option Fault := perform p (planScroll p base s) s

def renderInt (p : Params) (i : Word) (s : State) : State := (perform p (planGlyphs p (fmtInt i.toInt) s) s).1

def renderFloat (p : Params) (bits : Word) (s : State) : State :=
  (perform p (planGlyphs p (p.fmtFloat bits) s) s).1

def renderErr (p : Params) (code : Word) (s : State) : State := (perform p (planGlyphs p (p.fmtErr code) s) s).1

/-- `INIT pp` (R171). -/
def execInit (pp : Word) (s : State) : Host.Outcome State Fault Refusal := .next (init deployed pp s)

/-- `SCROLL base` (R175). -/
def execScroll (base : BitVec 8) (s : State) : Host.Outcome State Fault Refusal :=
  runOutcome (scroll deployed base s)

/-- `RENDER_INT i` (R180). -/
def execRenderInt (i : Word) (s : State) : Host.Outcome State Fault Refusal := .next (renderInt deployed i s)

/-- `RENDER_FLOAT bits` (R182). -/
def execRenderFloat (bits : Word) (s : State) : Host.Outcome State Fault Refusal :=
  .next (renderFloat deployed bits s)

/-- `RENDER_ERR code` (R183). -/
def execRenderErr (code : Word) (s : State) : Host.Outcome State Fault Refusal :=
  .next (renderErr deployed code s)

end Sys2Proof.Machine
end

