-- ==== Sys2Proof/Machine/Device.lean ====
section
/-! DEFINITION. The device-side shadow (R58 to R64): what a trace says the display device has latched. No
rule of the block reads it (R32). -/

namespace Sys2Proof.Machine

/-- The latch (R62): one control byte with bit 7 clear, or exactly 20 dot bytes; anything else leaves the
register of that space unknown. -/
def Shadow.latch (d : Shadow) : Shadow :=
  match d.pend with
  | none => d
  | some (.ctrl, bytes) =>
    { d with
      pend := none
      ctrl := match bytes with
        | some [w] => if w.extractLsb' 7 1 = 0 then some w else none
        | _ => none }
  | some (.dot, bytes) =>
    { d with
      pend := none
      dot := match bytes with
        | some bs => if bs.length = 20 then some bs else none
        | none => none }

/-- The register of a space becomes unknown. -/
def Shadow.forget (d : Shadow) : Space → Shadow
  | .ctrl => { d with ctrl := none }
  | .dot => { d with dot := none }

/-- The pending window is lost and the register of its space becomes unknown (R63). -/
def Shadow.losePending (d : Shadow) : Shadow :=
  match d.pend with
  | none => d
  | some (sp, _) => { d.forget sp with pend := none }

/-- A write of RS (R59). -/
def Shadow.onRs (d : Shadow) (v : Level) : Shadow :=
  { d with bad := d.bad || d.ce = 0, rs := some v, rsSettled := false }

/-- A write of CE (R59, R61). -/
def Shadow.onCe (p : Params) (d : Shadow) (v : Level) : Shadow :=
  if v = d.ce then d
  else if v = 0 then
    { d with
      bad := d.bad || d.rs = none || !d.rsSettled
      sel := if d.rs = some p.rsCtrl then .ctrl else .dot
      sr := some []
      ce := 0 }
  else
    { d with
      bad := d.bad || (d.sr ≠ some [] && !d.txSettled)
      pend := some (d.sel, d.sr)
      ce := 1 }

/-- A write of RST (R64). -/
def Shadow.onRst (d : Shadow) (v : Level) : Shadow :=
  if v = 0 then
    { d with ctrl := none, dot := none, pend := none, sr := some [], rst := 0, rstHeld := false }
  else { d with bad := d.bad || (d.rst = 0 && !d.rstHeld), rst := 1 }

/-- A byte on the display's channel (R60, R63). -/
def Shadow.onTx (d : Shadow) (b : Byte) (st : Status) : Shadow :=
  match st with
  | .ok =>
    let l := d.latch
    { l with sr := if l.ce = 0 then l.sr.map (· ++ [b]) else l.sr, txSettled := false }
  | .fail =>
    let l := d.losePending
    { l with sr := if l.ce = 0 then none else l.sr, txSettled := false }

/-- What one event tells of the device (R59 to R64). A `TX` on another channel changes nothing (R60). -/
def Shadow.see (p : Params) (d : Shadow) (e : Event) : Shadow :=
  match e with
  | .pin .rs v => d.onRs v
  | .pin .ce v => d.onCe p v
  | .pin .rst v => d.onRst v
  | .delayUs n => { d with rsSettled := d.rsSettled || 1 ≤ n, txSettled := d.txSettled || 10 ≤ n }
  | .delayMs n => { d with rstHeld := d.rstHeld || 10 ≤ n }
  | .tx ch b st => if ch = p.dispCh then d.onTx b st else d
  | .tinit _ _ _ => d
  | .clkGate _ => d
  | .gpioCfg => d
  | .log _ => d

/-- The shadow after a list of events. -/
def Shadow.seeAll (p : Params) (d : Shadow) (es : List Event) : Shadow := es.foldl (Shadow.see p) d

/-- The shadow of a state: its trace, from what the device held when the trace was last emptied. -/
def State.shadow (p : Params) (s : State) : Shadow := s.dev0.seeAll p s.trace

/-- A reset of KBSD as the device sees it (R241, R242): CE and RST go to 1; a window that was open, or not
yet latched, leaves the register of its space unknown; otherwise the device holds what it held. -/
def Shadow.onBlockReset (p : Params) (d : Shadow) : Shadow :=
  ((d.onCe p 1).losePending).onRst 1

/-- The reset input (R240 to R242): every register takes its value of R34, the operation is abandoned,
RS is left as it was (R250), `TXT` and the host's pending inputs are the host's. -/
def blockReset (p : Params) (s : State) : State :=
  { State.reset with
    rs := s.rs
    txt := s.txt
    port := s.port
    inputs := s.inputs
    answers := s.answers
    fresh := s.fresh
    dev0 := (s.shadow p).onBlockReset p }

/-- An input of the host lands. -/
def landInput (p : Params) (act : HostAct) (s : State) : State :=
  match act with
  | .writeTxt a v => hostWrite a v s
  | .reset => blockReset p s

end Sys2Proof.Machine
end

