-- ==== Sys2Proof/Machine/Transport.lean ====
section
/-! DEFINITION. `SELDIV` (R100) and `CONFIGURE` (R120). -/

namespace Sys2Proof.Machine

/-- R100. -/
def planSeldiv (p : Params) (bus target : Word) : Except Err (List Action) :=
  if bus = 0 ∨ target = 0 then .error .illegalOperand
  else
    let r := selDiv (divisors p.presc) bus.toNat target.toNat
    .ok [.warn r.2, .setRes r.1]

/-- R120, line 1 first (R121). -/
def planConfigure (p : Params) (ch pp : Word) : Except Err (List Action) :=
  if p.nCh ≤ ch.toNat then .error .unresolvableChannel else .ok (configureScript p ch.toNat pp)

def seldiv (p : Params) (bus target : Word) (s : State) : State := (perform p (planSeldiv p bus target) s).1

def configure (p : Params) (ch pp : Word) (s : State) : State := (perform p (planConfigure p ch pp) s).1

/-- `SELDIV bus, target` (R100). -/
def execSeldiv (bus target : Word) (s : State) : Host.Outcome State Fault Refusal :=
  .next (seldiv deployed bus target s)

/-- `CONFIGURE ch, pp` (R120). -/
def execConfigure (ch pp : Word) (s : State) : Host.Outcome State Fault Refusal :=
  .next (configure deployed ch pp s)

end Sys2Proof.Machine
end

