-- ==== Sys2Proof/Machine/Writes.lean ====
section
/-! DEFINITION. The three primitive writes: `WRCTL` (R150), `WRGLYPH` (R151), `CLEAR` (R152). -/

namespace Sys2Proof.Machine

/-- R150. -/
def planWrctl (p : Params) (pwm peak : Byte) (sleep : BitVec 1) (s : State) : Except Err (List Action) :=
  if !channelValid s p.dispCh then .error .notConfigured
  else .ok (controlWindow p (controlByte pwm peak sleep))

/-- R152. -/
def planClear (p : Params) (s : State) : Except Err (List Action) :=
  if !channelValid s p.dispCh then .error .notConfigured else .ok (clearWindow p)

def wrctl (p : Params) (pwm peak : Byte) (sleep : BitVec 1) (s : State) : State :=
  (perform p (planWrctl p pwm peak sleep s) s).1

def wrglyph (p : Params) (f : Four) (s : State) : State := (perform p (planGlyphs p f s) s).1

def clear (p : Params) (s : State) : State := (perform p (planClear p s) s).1

/-- `WRCTL pwm, peak, sleep` (R150). -/
def execWrctl (pwm peak : Byte) (sleep : BitVec 1) (s : State) : Host.Outcome State Fault Refusal :=
  .next (wrctl deployed pwm peak sleep s)

/-- `WRGLYPH c0, c1, c2, c3` (R151). -/
def execWrglyph (c0 c1 c2 c3 : Byte) (s : State) : Host.Outcome State Fault Refusal :=
  .next (wrglyph deployed ⟨c0, c1, c2, c3⟩ s)

/-- `CLEAR` (R152). -/
def execClear (s : State) : Host.Outcome State Fault Refusal := .next (clear deployed s)

end Sys2Proof.Machine
end

