-- ==== Sys2Proof/Machine/Advance.lean ====
section
/-! DEFINITION. Whose turn it is and what a turn does, over any meaning of the operations, and the same
machine at any other deployment (for worked examples, which name their own parameters). -/

namespace Sys2Proof.Machine

/-- The running operation goes on from its position (R13). -/
def resume (p : Params) (s : State) : Host.Outcome State Fault Refusal :=
  runOutcome (runScript p s.todo { s with todo := [] })

/-- A command is accepted and its operation run (R70); a reserved opcode is reported (R78). -/
def runCommand (run : Instr → State → Host.Outcome State Fault Refusal) (cw : CmdWord) (s : State) :
    Host.Outcome State Fault Refusal :=
  match decode cw with
  | .ok i => run i (accept cw s)
  | .error (.reservedOpcode _) => .next (illegalCommand (accept cw s))

/-- The turn when no input of the host is due: a running operation goes on and the port accepts nothing
(R12); otherwise the next command is accepted; with none, KBSD waits (R240). -/
def takeTurn (run : Instr → State → Host.Outcome State Fault Refusal) (p : Params) (s : State) :
    Host.Outcome State Fault Refusal :=
  if s.busy then resume p s
  else
    match s.port with
    | cw :: rest => runCommand run cw { s with port := rest }
    | [] => .next (passTime s)

/-- One step: an input of the host that is due lands; otherwise KBSD takes its turn. -/
def advance (run : Instr → State → Host.Outcome State Fault Refusal) (p : Params) (s : State) :
    Host.Outcome State Fault Refusal :=
  match s.inputs with
  | ⟨0, act⟩ :: rest => .next (landInput p act { s with inputs := rest })
  | _ => takeTurn run p s

/-- The meanings at a deployment `p`; at `deployed` this is `exec` (Laws/Step.lean). -/
def execWith (p : Params) (i : Instr) (s : State) : Host.Outcome State Fault Refusal :=
  match i with
  | .seldiv bus target => .next (seldiv p bus target s)
  | .configure ch pp => .next (configure p ch pp s)
  | .wrctl pwm peak sleep => .next (wrctl p pwm peak sleep s)
  | .wrglyph c0 c1 c2 c3 => .next (wrglyph p ⟨c0, c1, c2, c3⟩ s)
  | .clear => .next (clear p s)
  | .init pp => .next (init p pp s)
  | .scroll base => runOutcome (scroll p base s)
  | .renderInt n => .next (renderInt p n s)
  | .renderFloat bits => .next (renderFloat p bits s)
  | .renderErr code => .next (renderErr p code s)

/-- One step at a deployment `p`. -/
def stepWith (p : Params) (s : State) : Host.Outcome State Fault Refusal := advance (execWith p) p s

/-- The command word that a fetch of `nbits` bits `w` presents, numbered as the opcode table numbers
them (R70). -/
def tableCommand (nbits w : Nat) : CmdWord := BitVec.ofNat 72 (w % 2 ^ nbits)

/-- The host presents a command that the very next step accepts: it stands first at the port, nothing is
running, no other input is pending. -/
def presentNext (cw : CmdWord) (s : State) : State :=
  { s with port := cw :: s.port, busy := false, todo := [], inputs := [] }

end Sys2Proof.Machine
end

