-- ==== Sys2Proof/Machine/Dispatch.lean ====
section
/-! DEFINITION. `exec`: one arm per operation, each one call of its meaning. -/

namespace Sys2Proof.Machine

def exec (i : Instr) (s : State) : Host.Outcome State Fault Refusal :=
  match i with
  | .seldiv bus target => Sys2Proof.Machine.execSeldiv bus target s
  | .configure ch pp => Sys2Proof.Machine.execConfigure ch pp s
  | .wrctl pwm peak sleep => Sys2Proof.Machine.execWrctl pwm peak sleep s
  | .wrglyph c0 c1 c2 c3 => Sys2Proof.Machine.execWrglyph c0 c1 c2 c3 s
  | .clear => Sys2Proof.Machine.execClear s
  | .init pp => Sys2Proof.Machine.execInit pp s
  | .scroll base => Sys2Proof.Machine.execScroll base s
  | .renderInt n => Sys2Proof.Machine.execRenderInt n s
  | .renderFloat bits => Sys2Proof.Machine.execRenderFloat bits s
  | .renderErr code => Sys2Proof.Machine.execRenderErr code s

end Sys2Proof.Machine
end

