-- ==== Sys2Proof/Machine/Step.lean ====
section
/-! DEFINITION. One step of the machine, and how a command is put where the step takes its next one. -/

namespace Sys2Proof.Machine

/-- One step: an input of the host lands, or KBSD accepts and runs a command, goes on with one, or
waits. -/
def step (s : State) : Host.Outcome State Fault Refusal := advance exec deployed s

/-- `s` with the command of the table's bits `w` presented to the very next step. -/
def State.withFetchWord (s : State) (nbits w : Nat) : State := presentNext (tableCommand nbits w) s

end Sys2Proof.Machine
end

