-- ==== Sys2Proof/Machine/Assembler.lean ====
section
/-! DEFINITION. The assembly language of R87 and the pseudo-operations of R88 (c), over lines already cut
into a mnemonic and its operands. -/

namespace Sys2Proof.Machine

/-- The mnemonics of R71 and the two pseudo-operations of R88 (c). -/
inductive Mnemonic where
  | seldiv
  | configure
  | wrctl
  | wrglyph
  | clear
  | init
  | scroll
  | renderInt
  | renderFloat
  | renderErr
  | wake
  | sleep
  deriving DecidableEq, Repr

/-- The names of R83 that an assembler knows for `pp` (R87). -/
inductive PolarityName where
  | leadRising
  | leadFalling
  | trailRising
  | trailFalling
  deriving DecidableEq, Repr

/-- An operand of an assembly line: a number, a polarity/phase name, or a character literal. -/
inductive AsmOperand where
  | num (n : Int)
  | name (n : PolarityName)
  | text (cs : List Char)
  deriving DecidableEq, Repr

/-- One line of assembly. -/
structure AsmLine where
  mnemonic : Mnemonic
  operands : List AsmOperand
  deriving DecidableEq, Repr

/-- The number a polarity/phase name stands for (R83, R87). -/
def PolarityName.code : PolarityName → Word
  | .leadRising => 0
  | .leadFalling => 1
  | .trailRising => 2
  | .trailFalling => 3

/-- An unsigned number that fits in `w` bits. -/
def unsignedOperand (w : Nat) (n : Int) : Option (BitVec w) :=
  if 0 ≤ n ∧ n < 2 ^ w then some (BitVec.ofNat w n.toNat) else none

/-- A signed decimal that fits in 32 bits (R87, `RENDER_INT`). -/
def signedOperand (n : Int) : Option Word :=
  if -(2 ^ 31) ≤ n ∧ n < 2 ^ 31 then some (BitVec.ofInt 32 n) else none

/-- A polarity/phase operand: a number or a name (R87). -/
def polarityOperand : AsmOperand → Option Word
  | .num n => unsignedOperand 32 n
  | .name n => some n.code
  | .text _ => none

/-- The code of a character literal (R86). Of a character outside ASCII the rule gives no code; the Unicode code
point modulo 256 is the model's own (DESIGN CHOICE, log 25). -/
def charCode (c : Char) : Byte := BitVec.ofNat 8 c.toNat

/-- The command a line stands for (R87); `WAKE` and `SLEEP` are expanded as R88 (c) says. -/
def assemble (p : Params) (l : AsmLine) : Option Instr :=
  match l.mnemonic, l.operands with
  | .seldiv, [.num bus, .num target] => do
    return .seldiv (← unsignedOperand 32 bus) (← unsignedOperand 32 target)
  | .configure, [.num ch, pp] => do
    return .configure (← unsignedOperand 32 ch) (← polarityOperand pp)
  | .wrctl, [.num pwm, .num peak, .num sleep] => do
    return .wrctl (← unsignedOperand 8 pwm) (← unsignedOperand 8 peak) (← unsignedOperand 1 sleep)
  | .wrglyph, [.num c0, .num c1, .num c2, .num c3] => do
    return .wrglyph (← unsignedOperand 8 c0) (← unsignedOperand 8 c1) (← unsignedOperand 8 c2)
      (← unsignedOperand 8 c3)
  | .wrglyph, [.text [a, b, c, d]] => some (.wrglyph (charCode a) (charCode b) (charCode c) (charCode d))
  | .clear, [] => some .clear
  | .init, [pp] => do return .init (← polarityOperand pp)
  | .scroll, [.num base] => do return .scroll (← unsignedOperand 8 base)
  | .renderInt, [.num i] => do return .renderInt (← signedOperand i)
  | .renderFloat, [.num bits] => do return .renderFloat (← unsignedOperand 32 bits)
  | .renderErr, [.num code] => do return .renderErr (← unsignedOperand 32 code)
  | .wake, [] => some (.wrctl (0#4 ++ p.pwmFixed) (0#6 ++ p.peakFixed) p.wakeS)
  | .sleep, [] => some (.wrctl (0#4 ++ p.pwmFixed) (0#6 ++ p.peakFixed) (~~~p.wakeS))
  | _, _ => none

/-- The line `TXT[b] = "text"` (R87): the host places the literal's bytes from address `b` up and then a
0x00, if they fit below 256. -/
def textDirective (b : Nat) (cs : List Char) : Option (List HostAct) :=
  if b + cs.length < 256 then
    some ((cs.map charCode ++ [0]).zipIdx.map fun (e : Byte × Nat) => .writeTxt (BitVec.ofNat 8 (b + e.2)) e.1)
  else none

end Sys2Proof.Machine
end

