-- ==== Sys2Proof/Machine/Link.lean ====
section
/-! DEFINITION. The serial link at the level of bits and time (R42, R52 to R54, R56, R265): the waveform of a
transmitted byte, the bit clock, and the least time a list of events takes. No step depends on it. -/

namespace Sys2Proof.Machine

/-- Which way the clock line moves. -/
inductive Edge where
  | rising
  | falling
  deriving DecidableEq, Repr

/-- Which of the two edges of a clock period. -/
inductive EdgePlace where
  | leading
  | trailing
  deriving DecidableEq, Repr

/-- One clock period of a transmission (R52, R53): the bit on `SDO` at the sampling edge, the two edges of
`SCK`, which of them samples, and which of them `SDO` waits for before it changes. -/
structure ClockPeriod where
  sdo : BitVec 1
  leading : Edge
  trailing : Edge
  samples : EdgePlace
  changes : EdgePlace
  deriving DecidableEq, Repr

/-- One edge of `SCK` with what `SDO` is known to hold just before and just after it; `none` where R53 leaves
open whether `SDO` has changed yet ("on or after" an edge). -/
structure LineEdge where
  place : EdgePlace
  edge : Edge
  before : Option (BitVec 1)
  after : Option (BitVec 1)
  deriving DecidableEq, Repr

/-- The level of `SCK` between transmissions (R52). -/
def restLevel (cfg : BitVec 16) : Level := cfgCpol cfg

/-- The leading edge, away from the rest level (R53). -/
def leadingEdge (cfg : BitVec 16) : Edge := if cfgCpol cfg = 0 then .rising else .falling

/-- The trailing edge, back to the rest level (R53). -/
def trailingEdge (cfg : BitVec 16) : Edge := if cfgCpol cfg = 0 then .falling else .rising

/-- Which edge the receiver samples on (R19, R53). -/
def samplingPlace (cfg : BitVec 16) : EdgePlace := if cfgCpha cfg = 0 then .leading else .trailing

/-- The edge on or after which `SDO` changes (R53): with `CPHA = 0` the trailing edge, to the next bit; with
`CPHA = 1` the leading edge, to the period's own bit. -/
def changingPlace (cfg : BitVec 16) : EdgePlace := if cfgCpha cfg = 0 then .trailing else .leading

/-- Which way the sampling edge goes (R53). -/
def samplingEdge (cfg : BitVec 16) : Edge :=
  match samplingPlace cfg with
  | .leading => leadingEdge cfg
  | .trailing => trailingEdge cfg

/-- The bits of a byte in the order they leave (R50, R52): `b[7]` first; `LSBF = 1`, which no operation
writes (R19), would send `b[0]` first. -/
def bitOrder (cfg : BitVec 16) (b : Byte) : List (BitVec 1) :=
  let msbFirst := [7, 6, 5, 4, 3, 2, 1, 0].map fun k => b.extractLsb' k 1
  if cfgLsbf cfg = 0 then msbFirst else msbFirst.reverse

/-- The eight clock periods of a byte (R52, R53). -/
def waveform (cfg : BitVec 16) (b : Byte) : List ClockPeriod :=
  (bitOrder cfg b).map fun v =>
    { sdo := v, leading := leadingEdge cfg, trailing := trailingEdge cfg, samples := samplingPlace cfg
      changes := changingPlace cfg }

/-- The two edges of a period (R53), `prev` being the bit of the period before it. With a change at the trailing
edge the bit is stable from before the leading edge up to the trailing one; with a change at the leading edge
the previous bit stands up to it, and the bit is stable from before the trailing edge on. -/
def ClockPeriod.edges (prev : Option (BitVec 1)) (c : ClockPeriod) : List LineEdge :=
  match c.changes with
  | .trailing => [⟨.leading, c.leading, some c.sdo, some c.sdo⟩, ⟨.trailing, c.trailing, some c.sdo, none⟩]
  | .leading => [⟨.leading, c.leading, prev, none⟩, ⟨.trailing, c.trailing, some c.sdo, some c.sdo⟩]

/-- The edges of a list of periods, in order. -/
def lineEdges : Option (BitVec 1) → List ClockPeriod → List LineEdge
  | _, [] => []
  | prev, c :: cs => c.edges prev ++ lineEdges (some c.sdo) cs

/-- The sixteen edges of a byte; what `SDO` holds before the first one is open. -/
def byteEdges (cfg : BitVec 16) (b : Byte) : List LineEdge := lineEdges none (waveform cfg b)

/-- The levels `SCK` takes during a byte: two per period, from the rest level and back to it (R53). -/
def clockLevels (cfg : BitVec 16) (b : Byte) : List Level :=
  (waveform cfg b).flatMap fun _ => [~~~restLevel cfg, restLevel cfg]

/-- What a receiver that samples on the sampling edge has after the periods, first bit highest. -/
def sampled : List ClockPeriod → Nat
  | [] => 0
  | c :: cs => c.sdo.toNat * 2 ^ cs.length + sampled cs

/-- `f_bit` of a channel whose `TCFG.BR` is `br`, in hertz, exact (R42). -/
def bitClock (p : Params) (ch : Nat) (br : BitVec 3) : Option Rat :=
  match p.presc.find? (fun e => e.code = br) with
  | some e => some ((p.busFreq (p.chDom ch) : Rat) / (e.div : Rat))
  | none => none

/-- A divisor keeps the bit clock within a rating; the premise R259 and U18 ask of a claim about the
device. -/
def withinRating (p : Params) (rating : Rat) (ch : Nat) (br : BitVec 3) : Prop :=
  ∃ f, bitClock p ch br = some f ∧ f ≤ rating

/-- The least time of one byte in microseconds (R54): eight bit periods. -/
def byteMicros (p : Params) (ch : Nat) (br : BitVec 3) : Rat :=
  match bitClock p ch br with
  | some f => 8 * 1000000 / f
  | none => 0

/-- The least time one event takes, in microseconds (R56, R265), with the channels configured as `cfgs`.
A transmit takes its eight bit periods whatever its status (R52, R54). -/
def eventMicros (p : Params) (cfgs : Sparse 16) (e : Event) : Rat :=
  match e with
  | .delayUs n => n
  | .delayMs n => 1000 * n
  | .tx ch _ _ => byteMicros p ch (cfgBr (Sparse.read cfgs ch))
  | .pin _ _ => 0
  | .tinit _ _ _ => 0
  | .clkGate _ => 0
  | .gpioCfg => 0
  | .log _ => 0

/-- The channels' configuration after an event, as the trace tells it (R125): after a failed transport init the
channel is invalid, and its other fields, which are unspecified, are left as they were. -/
def cfgsAfter (cfgs : Sparse 16) (e : Event) : Sparse 16 :=
  match e with
  | .tinit ch cfg .ok => Sparse.write cfgs ch (cfg ||| validBit)
  | .tinit ch _ .fail => Sparse.write cfgs ch (Sparse.read cfgs ch &&& ~~~validBit)
  | _ => cfgs

/-- The least time a list of events takes, in microseconds; there is no upper bound (R56, R265). -/
def leastMicros (p : Params) : Sparse 16 → List Event → Rat
  | _, [] => 0
  | cfgs, e :: es => eventMicros p cfgs e + leastMicros p (cfgsAfter cfgs e) es

end Sys2Proof.Machine
end

