-- ==== Sys2Proof/Safety.lean ====
section
/-! DEFINITION. What counts as a safe run, and the closed forms the claims speak in: the events of a window
(R154), the state it leaves, the frames of a scroll, what operations leave unchanged, and the invariant of
R20, R24, R122. -/

namespace Sys2Proof.Machine

/-! ### Answers and windows -/

/-- The next `n` answers the collaborators will give. -/
def answersAhead (p : Params) : Nat → State → List Status
  | 0, _ => []
  | n + 1, s => nextAnswer p s :: answersAhead p n (useAnswer s)

/-- The state with `n` answers used up and nothing else changed. -/
def afterAnswers : Nat → State → State
  | 0, s => s
  | n + 1, s => afterAnswers n (useAnswer s)

/-- The log entry a status brings (R148). -/
def statusEvents : Status → List Event
  | .ok => []
  | .fail => [.log .eTxFailed]

/-- One `TX` per byte, each with its status, each failure followed by its log entry (R143, R148). -/
def txEvents (p : Params) : List Byte → List Status → List Event
  | b :: bs, st :: sts => .tx p.dispCh b st :: (statusEvents st ++ txEvents p bs sts)
  | _, _ => []

/-- The events of one window (R140, R154): the statuses are those of the payload bytes, then the dummy's. -/
def windowEvents (p : Params) (sp : Space) (payload : List Byte) (sts : List Status) : List Event :=
  [.pin .rs (spaceLevel p sp), .delayUs p.tSettleUs, .pin .ce 0] ++
    txEvents p payload (sts.take payload.length) ++
    [.delayUs p.tPostUs, .pin .ce 1] ++ txEvents p [0] (sts.drop payload.length)

/-- A status list with a failure in it. -/
def anyFail (sts : List Status) : Bool := sts.any (fun st => st = .fail)

/-- The state a window leaves (R140): `RS` at the space's level, `CE` high, `PH` idle, `IDX` at the
payload's length, `TXF` set if a transmit failed, the events in the trace, the answers used; nothing else
changes. -/
def windowDone (p : Params) (sp : Space) (payload : List Byte) (s : State) : State :=
  let sts := answersAhead p (payload.length + 1) s
  { afterAnswers (payload.length + 1) s with
    rs := spaceLevel p sp
    ce := 1
    ph := .idle
    idx := BitVec.ofNat 5 payload.length
    txf := s.txf || anyFail sts
    trace := s.trace ++ windowEvents p sp payload sts }

/-! ### Frames of a scroll -/

/-- The four characters from address `a` of `TXT` (R177). -/
def textWindow (m : Memory) (a : Nat) : Four :=
  ⟨Memory.read m a, Memory.read m (a + 1), Memory.read m (a + 2), Memory.read m (a + 3)⟩

/-- The frame of a short string (R178): its characters, then spaces. -/
def shortFrame (m : Memory) (b n : Nat) : Four :=
  ⟨if 0 < n then Memory.read m b else space, if 1 < n then Memory.read m (b + 1) else space,
    if 2 < n then Memory.read m (b + 2) else space, if 3 < n then Memory.read m (b + 3) else space⟩

/-- The frames of a scroll of the string of length `n` at `b` (R177, R178). -/
def scrollFrames (m : Memory) (b n : Nat) : List Four :=
  if n ≤ 3 then [shortFrame m b n] else (List.range (n - 3)).map fun w => textWindow m (b + w)

/-- The events of frames with a pause between each two (R179); each frame uses 21 statuses. -/
def framesEvents (p : Params) : List Four → List Status → List Event
  | [], _ => []
  | [f], sts => windowEvents p .dot (frame p f) (sts.take 21)
  | f :: g :: fs, sts =>
    windowEvents p .dot (frame p f) (sts.take 21) ++ [.delayMs p.tScrollMs] ++
      framesEvents p (g :: fs) (sts.drop 21)

/-! ### What stays -/

/-- What no operation changes (with no host input pending): the latches (R11), the host's text, port and inputs (R44, R12), the fixed
past of the device. -/
structure KeepsHost (s t : State) : Prop where
  op : t.op = s.op
  a : t.a = s.a
  b : t.b = s.b
  text : ∀ addr, Memory.read t.txt addr = Memory.read s.txt addr
  port : t.port = s.port
  inputs : t.inputs = s.inputs
  dev0 : t.dev0 = s.dev0

/-- The transport registers of every channel stay (R21). -/
structure KeepsTransport (s t : State) : Prop where
  gates : ∀ ch, Sparse.read t.clken ch = Sparse.read s.clken ch
  cfgs : ∀ ch, Sparse.read t.tcfg ch = Sparse.read s.tcfg ch

/-- The pins and the phase stay. -/
structure KeepsPins (s t : State) : Prop where
  ce : t.ce = s.ce
  rs : t.rs = s.rs
  rst : t.rst = s.rst
  ph : t.ph = s.ph

/-- The warning flags stay. -/
structure KeepsWarnings (s t : State) : Prop where
  low : t.warnLow = s.warnLow
  high : t.warnHigh = s.warnHigh

/-- An operation is over (R12, R207): not busy, nothing left to do. -/
structure Over (t : State) : Prop where
  busy : t.busy = false
  todo : t.todo = []

/-- What a display write leaves as it was (R150 to R152): everything but the trace, `RS`, `CE`, `PH`,
`TXF`, `ERR`, the transient registers and the draws. -/
structure DisplayWriteFrame (s t : State) : Prop where
  host : KeepsHost s t
  transport : KeepsTransport s t
  warnings : KeepsWarnings s t
  res : t.res = s.res
  rst : t.rst = s.rst

/-- One window was written and nothing else happened (R150 to R152, R154, R207): its events, whatever the
answers; `TXF` set if a transmit failed, `ERR` as it was (R148); the pins and the phase where a window leaves
them; the rest as `DisplayWriteFrame` says. -/
structure WroteWindow (p : Params) (sp : Space) (payload : List Byte) (s t : State) : Prop where
  trace : t.trace = s.trace ++ windowEvents p sp payload (answersAhead p (payload.length + 1) s)
  txf : t.txf = (s.txf || anyFail (answersAhead p (payload.length + 1) s))
  err : t.err = s.err
  rs : t.rs = spaceLevel p sp
  ce : t.ce = 1
  ph : t.ph = .idle
  ended : Over t
  frame : DisplayWriteFrame s t

/-- The only events are `es`, and `ERR` is `e`. -/
structure Reports (s t : State) (e : Err) (es : List Event) : Prop where
  err : t.err = e
  trace : t.trace = s.trace ++ es

/-- A refusal before anything happened (R206): the error and its log entry, the operation over, everything
else as it was. -/
structure RefusedWith (e : Err) (s t : State) : Prop where
  reports : Reports s t e e.logEvents
  ended : Over t
  host : KeepsHost s t
  transport : KeepsTransport s t
  pins : KeepsPins s t
  warnings : KeepsWarnings s t
  txf : t.txf = s.txf
  res : t.res = s.res

/-- The flags of `STAT` and the log agree over a run (R17, R200, R201, R205): a warning flag or `TXF` is set
exactly if it was or its log entry was added; `ERR` is the error of the one error entry, or as it was where
there is none. -/
def FlagsFollowLog (s t : State) : Prop :=
  ∃ es, t.trace = s.trace ++ es ∧
    t.warnLow = (s.warnLow || decide (Event.log .wDivLow ∈ es)) ∧
    t.warnHigh = (s.warnHigh || decide (Event.log .wDivHigh ∈ es)) ∧
    t.txf = (s.txf || decide (Event.log .eTxFailed ∈ es)) ∧
    ((t.err = s.err ∧ ∀ e k, Err.logKind e = some k → Event.log k ∉ es) ∨
      ∃ k, t.err.logKind = some k ∧ Event.log k ∈ es ∧
        ∀ e k', Err.logKind e = some k' → Event.log k' ∈ es → e = t.err)

/-! ### The invariant -/

/-- Where the sequencer may stand for an action, and where it stands after it: the phase (R13, R140) and
whether the display's channel is valid. `none` where the action must not happen: a pin or transmit action
out of order (R13, R145), a transmit on an invalid channel (R149), a staged configuration that is not the
fixed one (R123), an operation's other actions inside a window (R207). -/
def flow (p : Params) (a : Action) (ph : Phase) (valid : Bool) : Option (Phase × Bool) :=
  match a with
  | .selectSpace _ => if ph = .idle ∧ valid = true then some (.selectRegister, valid) else none
  | .openWindow => if ph = .selectRegister then some (.enabled, valid) else none
  | .startData => if ph = .enabled then some (.writing, valid) else none
  | .send _ _ => if ph = .writing ∧ valid = true then some (.writing, valid) else none
  | .closeWindow => if ph = .writing then some (.latching, valid) else none
  | .dummy => if ph = .latching ∧ valid = true then some (.idle, valid) else none
  | .delayUs _ => some (ph, valid)
  | .tinit ch cfg =>
    if ph = .idle ∧ cfgFixed p cfg = true ∧ cfgZero cfg = 0 then some (.idle, valid || ch = p.dispCh) else none
  | .gpioCfg | .gate _ | .warn _ | .checkPolarity _ | .setRes _ | .delayMs _ | .driveRst _ | .loadChars _ |
    .setLen _ | .setWin _ | .loadText _ _ => if ph = .idle then some (ph, valid) else none

/-- The rest of an operation can be done in order from here and ends idle. -/
def flows (p : Params) : List Action → Phase → Bool → Bool
  | [], ph, _ => ph = .idle
  | a :: rest, ph, valid =>
    match flow p a ph valid with
    | some (ph', valid') => flows p rest ph' valid'
    | none => false

/-- No transport init among these actions. -/
def noTinit (script : List Action) : Bool :=
  script.all fun a =>
    match a with
    | .tinit _ _ => false
    | _ => true

/-- No transport init follows a transmission in the rest of an operation: the configuration comes first
(R171). -/
def transportFirst : List Action → Bool
  | [] => true
  | .send _ _ :: rest => noTinit rest
  | .dummy :: rest => noTinit rest
  | _ :: rest => transportFirst rest

/-- The invariant of the machine. -/
structure Inv (s : State) : Prop where
  /-- R24 (b). -/
  chipEnable : s.ce = 0 ↔ (s.ph = .enabled ∨ s.ph = .writing)
  /-- R24 (d): nothing runs, so the window is closed and nothing is left to do. -/
  idleWhenDone : s.busy = false → s.ph = .idle ∧ s.todo = [] ∧ s.stale = []
  /-- R13, R145, R149: the rest of the running operation fits where the sequencer stands. -/
  position : flows deployed s.todo s.ph (channelValid s deployed.dispCh) = true
  /-- R171: an operation that transmits configures nothing afterwards. -/
  configuredFirst : transportFirst s.todo = true
  /-- R20. -/
  fixedSettings : ∀ ch, cfgValid (Sparse.read s.tcfg ch) = 1 → cfgFixed deployed (Sparse.read s.tcfg ch) = true
  /-- R19: bits 15:10 read as 0. Of a channel left invalid by `TransportInitFailed` this is the model's choice
  (log 8), against U4's "any value"; of a valid channel it is R19 and R125. -/
  zeroBits : ∀ ch, cfgZero (Sparse.read s.tcfg ch) = 0
  /-- R122: one `CLKGATE(ch)` since reset if the gate is on, none if it is off. -/
  gates : ∀ ch, s.trace.count (.clkGate ch) = (Sparse.read s.clken ch).toNat
  /-- Memories in canonical form. -/
  text : Memory.wf s.txt = true
  gateMap : Sparse.wf s.clken = true
  cfgMap : Sparse.wf s.tcfg = true

/-! ### The device's side -/

/-- The device is between windows and the protocol has been kept (R59 to R64). -/
structure Shadow.Quiet (d : Shadow) : Prop where
  ce : d.ce = 1
  noPending : d.pend = none
  good : d.bad = false

/-- Every `TX` of a list is on the display's channel. -/
def onlyDisplayTx (p : Params) (es : List Event) : Prop :=
  ∀ ch b st, Event.tx ch b st ∈ es → ch = p.dispCh

/-- The bytes of the `TX` events of a list, in order. -/
def txBytes (es : List Event) : List Byte :=
  es.filterMap fun e =>
    match e with
    | .tx _ b _ => some b
    | _ => none

/-- The statuses of the `TX` events of a list, in order. -/
def txStatuses (es : List Event) : List Status :=
  es.filterMap fun e =>
    match e with
    | .tx _ _ st => some st
    | _ => none

end Sys2Proof.Machine
end

