-- ==== Sys2Proof/Certificates/Slice0/Obligations.lean ====
section
/-! DEFINITION. The statements for the provers. "No input pending" (`s.inputs = []`) says that the host
neither resets the block nor writes `TXT` while the operation runs (R242, R66); statements about every state
and every step do without it. -/

open Sys2Proof Sys2Proof.Machine

/-! ### Encoding -/

/-- R70 to R77: encoding and decoding agree both ways, on every bit an operation uses; exactly the opcodes
of R71 decode. -/
def Obligations.DecodeAndEncodeAgree : Prop :=
  (∀ i : Instr, i.wellFormed = true → decode (encode i) = .ok i) ∧
  (∀ (cw : CmdWord) (i : Instr), decode cw = .ok i → encode i = cw &&& i.usedBits) ∧
  (∀ cw : CmdWord, (∃ i, decode cw = .ok i) ↔ opField cw ∈ definedOpcodes)

/-- R77: bits an operation does not use may hold anything: two words that agree on the used bits decode to the
same operation, and a step that accepts the one does what a step that accepts the other does, next state or
fault, but for the latches `A` and `B`, which hold the whole words (R11). -/
def Obligations.UnusedBitsAreIgnored : Prop :=
  ∀ (cw cw' : CmdWord) (i : Instr), decode cw = .ok i → cw' &&& i.usedBits = cw &&& i.usedBits →
    decode cw' = .ok i ∧
    ∀ (s : State) (rest : List CmdWord), inputDue s = false → s.busy = false →
      (∀ t, step { s with port := cw :: rest } = .next t →
        step { s with port := cw' :: rest } = .next { t with a := aField cw', b := bField cw' }) ∧
      (∀ f, step { s with port := cw :: rest } = .fault f → step { s with port := cw' :: rest } = .fault f)

/-- Command words that spec/95_test_vectors.md writes out (V12, V31, V32, V39b, P1 to P4), and two reserved
ones (V68, V69). -/
def Obligations.SpecCommandWordsDecode : Prop :=
  decode 0x010280DE80004C4B40 = .ok (.seldiv 42000000 5000000) ∧
  decode 0x020000006300000009 = .ok (.configure 99 9) ∧
  decode 0x100001020F00000000 = .ok (.wrctl 15 2 1) ∧
  decode 0x10FFFE020FDEADBEEF = .ok (.wrctl 0x0F 2 0) ∧
  decode 0x114142434400000000 = .ok (.wrglyph 65 66 67 68) ∧
  decode 0x120000000000000000 = .ok .clear ∧
  decode 0x200000000200000000 = .ok (.init 2) ∧
  decode 0x210000001000000000 = .ok (.scroll 0x10) ∧
  decode 0x220000002A00000000 = .ok (.renderInt 42) ∧
  decode 0x000000000000000000 = .error (.reservedOpcode 0x00) ∧
  decode 0xFF123456789ABCDEF0 = .error (.reservedOpcode 0xFF)

/-! ### The step -/

/-- R11, R17, R70: a step with `BUSY = 0` and a command at the port accepts it (latches, `BUSY`, the result
fields cleared) and is `exec` of the decoded operation at that state. That a step is a whole command is the model's
choice (log 10). -/
def Obligations.StepRunsTheDecodedCommand : Prop :=
  ∀ (s : State) (cw : CmdWord) (rest : List CmdWord) (i : Instr),
    inputDue s = false → s.busy = false → s.port = cw :: rest → decode cw = .ok i →
    step s = exec i
      { s with
        port := rest, op := opField cw, a := aField cw, b := bField cw, busy := true, err := .noError,
        warnLow := false, warnHigh := false, txf := false }

/-- R78, R204: a reserved opcode is accepted and reported; only the latches, `STAT` and the log change, and
`BUSY` is 0 again. -/
def Obligations.ReservedOpcodeIsReported : Prop :=
  ∀ (s : State) (cw : CmdWord) (rest : List CmdWord),
    inputDue s = false → s.busy = false → s.port = cw :: rest → opField cw ∉ definedOpcodes →
    step s = .next
      { s with
        port := rest, op := opField cw, a := aField cw, b := bField cw, err := .illegalCommand,
        warnLow := false, warnHigh := false, txf := false, trace := s.trace ++ [.log .eIllegalCommand] }

/-- R12: while `BUSY = 1` the running operation goes on and the port accepts nothing: a command stays
presented, and the latches keep the running one. Where a step pauses is the model's choice (log 10, 11). -/
def Obligations.RunningOperationHoldsOffCommands : Prop :=
  ∀ s : State, inputDue s = false → s.busy = true →
    step s = runOutcome (runScript deployed s.todo { s with todo := [] }) ∧
    ∀ t, step s = .next t → t.port = s.port ∧ t.op = s.op ∧ t.a = s.a ∧ t.b = s.b

/-- R240: with no command presented the block waits and nothing changes. -/
def Obligations.IdleBlockWaits : Prop :=
  ∀ s : State, s.inputs = [] → s.busy = false → s.port = [] → step s = .next s

/-- R34: the reset values the spec states. (The values it leaves unspecified are the model's choice, log 1
to 5, and are not claimed here.) -/
def Obligations.ResetLeavesTheStatedValues : Prop :=
  State.reset.busy = false ∧ State.reset.ph = .idle ∧ State.reset.ph.code = 0 ∧ State.reset.err = .noError ∧
  State.reset.warnLow = false ∧ State.reset.warnHigh = false ∧ State.reset.txf = false ∧
  State.reset.stat = 0 ∧ (∀ ch, Sparse.read State.reset.clken ch = 0) ∧
  (∀ ch, Sparse.read State.reset.tcfg ch = 0x0000) ∧ State.reset.ce = 1 ∧ State.reset.rst = 1 ∧
  State.reset.trace = []

/-- R240 to R242, R250: the reset input, whatever was running, leaves the stated values of R34; RS stays as
it was, `TXT` and what the host presents are not touched; a device between windows holds what it held, and
an open window leaves the register it was writing unknown (log 15). -/
def Obligations.ResetInputAbandonsTheOperation : Prop :=
  ∀ (s : State) (rest : List HostInput), s.inputs = ⟨0, .reset⟩ :: rest →
    ∃ t, step s = .next t ∧ t.busy = false ∧ t.todo = [] ∧ t.ph = .idle ∧ t.err = .noError ∧
      t.warnLow = false ∧ t.warnHigh = false ∧ t.txf = false ∧ (∀ ch, Sparse.read t.clken ch = 0) ∧
      (∀ ch, Sparse.read t.tcfg ch = 0) ∧ t.ce = 1 ∧ t.rst = 1 ∧ t.trace = [] ∧ t.rs = s.rs ∧
      t.txt = s.txt ∧ t.port = s.port ∧ t.inputs = rest ∧
      ((s.shadow deployed).ce = 1 → (s.shadow deployed).pend = none → (s.shadow deployed).rst = 1 →
        t.shadow deployed = s.shadow deployed) ∧
      ((s.shadow deployed).ce = 0 → (s.shadow deployed).sel = .ctrl → (t.shadow deployed).ctrl = none) ∧
      ((s.shadow deployed).ce = 0 → (s.shadow deployed).sel = .dot → (t.shadow deployed).dot = none)

/-! ### The invariant -/

/-- The invariant of R20, R24, R122 holds at reset. -/
def Obligations.InvariantHoldsAtReset : Prop := Inv State.reset

/-- Every step, from every state that meets it, keeps the invariant: chip enable and phase agree and a block
at rest is idle with the window closed (R24), the rest of a paused operation fits where the sequencer stands
(R13), valid channels have the fixed settings (R20), bits 15:10 of `TCFG` are 0 (R19; of a channel left invalid
by a failed transport init this is the model's choice, log 8), one clock-gate event per channel whose gate is on
(R122), memories stay canonical. -/
def Obligations.EveryStepKeepsTheInvariant : Prop :=
  ∀ s t : State, Inv s → step s = .next t → Inv t

/-- R52, R149: whatever a step transmits, it transmits on the display's channel, and that channel is valid at
the moment of the transmission (as the transport inits before it in the trace leave it) and still when the step
ends. What the trace tells of a channel's validity is what its register says at the end of every step but a
reset. -/
def Obligations.TransmitsOnlyOnAValidDisplayChannel : Prop :=
  ∀ (s t : State) (es : List Event), Inv s → step s = .next t → t.trace = s.trace ++ es →
    (∀ pre ch b st post, es = pre ++ Event.tx ch b st :: post →
      ch = deployed.dispCh ∧ cfgValid (Sparse.read (pre.foldl cfgsAfter s.tcfg) ch) = 1 ∧
        channelValid t ch = true) ∧
    ((∀ rest, s.inputs ≠ ⟨0, .reset⟩ :: rest) →
      ∀ ch, cfgValid (Sparse.read (es.foldl cfgsAfter s.tcfg) ch) = cfgValid (Sparse.read t.tcfg ch))

/-- R30: the trace is only ever appended to, but by the reset input, which empties it. -/
def Obligations.TraceIsOnlyAppendedTo : Prop :=
  ∀ s t : State, step s = .next t → (∀ rest, s.inputs ≠ ⟨0, .reset⟩ :: rest) → ∃ es, t.trace = s.trace ++ es

/-- R207: at the end of every operation, whatever its outcome, the phase is idle and the window closed. -/
def Obligations.EveryOperationEndsWithTheWindowClosed : Prop :=
  ∀ (i : Instr) (s t : State), s.inputs = [] → s.ph = .idle → s.ce = 1 → exec i s = .next t →
    t.ph = .idle ∧ t.ce = 1 ∧ Over t

/-- R12, R70: with no input pending every operation runs to its end: a next state, `BUSY = 0`. -/
def Obligations.EveryOperationCompletes : Prop :=
  ∀ (i : Instr) (s : State), s.inputs = [] → s.stale = [] → ∃ t, exec i s = .next t ∧ Over t

/-- R17, R200, R201, R205: every flag an operation sets has its log entry, and every log entry its flag; `ERR`
is the error of the one error entry, or as it was when there is none. It holds of an operation from its
acceptance, and of a step that goes on with a paused one. -/
def Obligations.FlagsAgreeWithTheLog : Prop :=
  (∀ (i : Instr) (s t : State), exec i s = .next t → FlagsFollowLog s t) ∧
  (∀ s t : State, inputDue s = false → s.busy = true → step s = .next t → FlagsFollowLog s t)

/-- R21: no operation but `CONFIGURE` and `INIT` changes a clock gate or a transport configuration. -/
def Obligations.OnlyConfigureAndInitWriteTheTransport : Prop :=
  ∀ (i : Instr) (s t : State), (∀ ch pp, i ≠ .configure ch pp) → (∀ pp, i ≠ .init pp) →
    exec i s = .next t → t.clken = s.clken ∧ t.tcfg = s.tcfg

/-- R16: `RES` is written by `SELDIV` and by nothing else, in particular not by `CONFIGURE`. -/
def Obligations.OnlySeldivWritesTheResult : Prop :=
  ∀ (i : Instr) (s t : State), (∀ bus target, i ≠ .seldiv bus target) → exec i s = .next t → t.res = s.res

/-- R15: the layout of `STAT`. -/
def Obligations.StatusWordLayout : Prop :=
  ∀ s : State,
    s.stat.extractLsb' 0 1 = bit s.busy ∧ s.stat.extractLsb' 1 3 = 0 ∧ s.stat.extractLsb' 4 4 = s.err.code ∧
    s.stat.extractLsb' 8 1 = bit s.warnLow ∧ s.stat.extractLsb' 9 1 = bit s.warnHigh ∧
    s.stat.extractLsb' 10 1 = bit s.txf ∧ s.stat.extractLsb' 11 21 = 0

/-- R13, R200: the numeric codes of the phases and of the errors, and the log kind of each error. -/
def Obligations.PhaseAndErrorCodes : Prop :=
  Phase.idle.code = 0 ∧ Phase.selectRegister.code = 1 ∧ Phase.enabled.code = 2 ∧ Phase.writing.code = 3 ∧
  Phase.latching.code = 4 ∧ Err.noError.code = 0 ∧ Err.invalidPolarity.code = 1 ∧
  Err.unresolvableChannel.code = 2 ∧ Err.transportInitFailed.code = 3 ∧ Err.illegalCommand.code = 4 ∧
  Err.illegalOperand.code = 5 ∧ Err.notConfigured.code = 6 ∧ Err.glyphIndex.code = 7 ∧
  Err.noError.logEvents = [] ∧ Err.invalidPolarity.logEvents = [.log .eInvalidPolarity] ∧
  Err.unresolvableChannel.logEvents = [.log .eUnresolvableChannel] ∧
  Err.transportInitFailed.logEvents = [.log .eTransportInitFailed] ∧
  Err.illegalCommand.logEvents = [.log .eIllegalCommand] ∧
  Err.illegalOperand.logEvents = [.log .eIllegalOperand] ∧
  Err.notConfigured.logEvents = [.log .eNotConfigured] ∧ Err.glyphIndex.logEvents = [.log .eGlyphIndex]

/-! ### The Divisor Selector -/

/-- R41: the prescaler table of this deployment. -/
def Obligations.PrescalerTable : Prop :=
  (∀ k, k < 8 → readPresc deployed k = some ⟨2 ^ (k + 1), BitVec.ofNat 3 k⟩) ∧
  (∀ k, 8 ≤ k → readPresc deployed k = none)

/-- R101, R104, R105: the selection over any non-empty strictly increasing table: always an index of the
table, and each of the four cases as the rule writes it; in the last the entry is the only one. -/
def Obligations.SelectionFollowsTheAlgorithm : Prop :=
  ∀ (T : List Nat) (bus target : Nat), T ≠ [] → T.Pairwise (· < ·) → 1 ≤ bus → 1 ≤ target →
    (selDiv T bus target).1 < T.length ∧
    (2 ≤ T.length → T.getD (T.length - 2) 0 < bus / target → selDiv T bus target = (T.length - 1, .low)) ∧
    (bus / target ≤ T.getD 0 0 → selDiv T bus target = (0, .high)) ∧
    (T.length = 1 → T.getD 0 0 < bus / target → selDiv T bus target = (0, .low)) ∧
    (2 ≤ T.length → bus / target ≤ T.getD (T.length - 2) 0 → T.getD 0 0 < bus / target →
      (selDiv T bus target).2 = .none ∧
      ∀ k, k = (selDiv T bus target).1 ↔
        1 ≤ k ∧ k ≤ T.length - 2 ∧ T.getD (k - 1) 0 < bus / target ∧ bus / target ≤ T.getD k 0)

/-- R107: the map of this deployment. -/
def Obligations.SelectionMapOfThisDeployment : Prop :=
  divisors deployed.presc = [2, 4, 8, 16, 32, 64, 128, 256] ∧
  ∀ bus target : Nat, 1 ≤ bus → 1 ≤ target →
    selDiv (divisors deployed.presc) bus target =
      if bus / target ≤ 2 then (0, .high)
      else if bus / target ≤ 4 then (1, .none)
      else if bus / target ≤ 8 then (2, .none)
      else if bus / target ≤ 16 then (3, .none)
      else if bus / target ≤ 32 then (4, .none)
      else if bus / target ≤ 64 then (5, .none)
      else if bus / target ≤ 128 then (6, .none)
      else (7, .low)

/-- R106: what the selected divisor guarantees, with the premises the rule puts on it. -/
def Obligations.SelectedDivisorIsTightest : Prop :=
  ∀ (T : List Nat) (bus target k d : Nat) (w : Warn), T ≠ [] → T.Pairwise (· < ·) → 1 ≤ bus → 1 ≤ target →
    selDiv T bus target = (k, w) → d = T.getD k 0 →
    ((w = .none ∨ (w = .low ∧ bus / target ≤ T.getD (T.length - 1) 0)) →
      bus / target ≤ d ∧
      (1 ≤ k → T.getD (k - 1) 0 < bus / target ∧ T.getD (k - 1) 0 * target < bus)) ∧
    (bus / target < d → bus ≤ d * target) ∧
    (bus / target = d → (bus ≤ d * target ↔ bus % target = 0))

/-- R100: `SELDIV` with both operands positive writes `RES` and the warning, and nothing else; with a zero
operand it is refused and `RES` is unchanged. -/
def Obligations.SeldivResult : Prop :=
  ∀ (bus target : Word) (s : State), s.inputs = [] →
    (bus ≠ 0 → target ≠ 0 →
      ∃ t, exec (.seldiv bus target) s = .next t ∧
        t.res = BitVec.ofNat 8 (selDiv (divisors deployed.presc) bus.toNat target.toNat).1 ∧
        t.warnLow =
          (s.warnLow || decide ((selDiv (divisors deployed.presc) bus.toNat target.toNat).2 = .low)) ∧
        t.warnHigh =
          (s.warnHigh || decide ((selDiv (divisors deployed.presc) bus.toNat target.toNat).2 = .high)) ∧
        Reports s t s.err (selDiv (divisors deployed.presc) bus.toNat target.toNat).2.logEvents ∧
        Over t ∧ KeepsHost s t ∧ KeepsTransport s t ∧ KeepsPins s t ∧ t.txf = s.txf) ∧
    (bus = 0 ∨ target = 0 → ∃ t, exec (.seldiv bus target) s = .next t ∧ RefusedWith .illegalOperand s t)

/-! ### The Transport Configurator -/

/-- R83, R53: the map of the four polarity/phase codes, the edge each samples on, and no other code. -/
def Obligations.PolarityPhaseMap : Prop :=
  ppMap 0 = some (0, 0) ∧ ppMap 1 = some (0, 1) ∧ ppMap 2 = some (1, 1) ∧ ppMap 3 = some (1, 0) ∧
  (∀ pp : Word, 4 ≤ pp.toNat → ppMap pp = none) ∧
  ∀ cfg : BitVec 16,
    (ppMap 0 = some (cfgCpha cfg, cfgCpol cfg) → samplingPlace cfg = .leading ∧ samplingEdge cfg = .rising) ∧
    (ppMap 1 = some (cfgCpha cfg, cfgCpol cfg) → samplingPlace cfg = .leading ∧ samplingEdge cfg = .falling) ∧
    (ppMap 2 = some (cfgCpha cfg, cfgCpol cfg) → samplingPlace cfg = .trailing ∧ samplingEdge cfg = .rising) ∧
    (ppMap 3 = some (cfgCpha cfg, cfgCpol cfg) → samplingPlace cfg = .trailing ∧ samplingEdge cfg = .falling)

/-- R120, R122, R123, R125: a `CONFIGURE` of an existing channel with a legal code, whose transport init
answers ok: the gate on (its event only if it was off), every field of `TCFG[ch]`, the events in order, and
nothing else, other channels least of all (R126). -/
def Obligations.ConfigureCommits : Prop :=
  ∀ (ch pp : Word) (s : State), s.inputs = [] → Sparse.wf s.clken = true → Sparse.wf s.tcfg = true →
    ch.toNat < deployed.nCh → pp.toNat < 4 → nextAnswer deployed s = .ok →
    ∃ (t : State) (cfg : BitVec 16), exec (.configure ch pp) s = .next t ∧
      cfgValid cfg = 0 ∧ cfgMstr cfg = 1 ∧ cfgHwcs cfg = 0 ∧ cfgLsbf cfg = 0 ∧ cfgW16 cfg = 0 ∧ cfgZero cfg = 0 ∧
      ppMap pp = some (cfgCpha cfg, cfgCpol cfg) ∧
      cfgBr cfg = prescCode deployed (channelDivisor deployed ch.toNat).1 ∧
      Sparse.read t.tcfg ch.toNat = cfg ||| 0x0200 ∧ Sparse.read t.clken ch.toNat = 1 ∧
      (∀ c, c ≠ ch.toNat →
        Sparse.read t.tcfg c = Sparse.read s.tcfg c ∧ Sparse.read t.clken c = Sparse.read s.clken c) ∧
      t.warnLow = (s.warnLow || decide ((channelDivisor deployed ch.toNat).2 = .low)) ∧
      t.warnHigh = (s.warnHigh || decide ((channelDivisor deployed ch.toNat).2 = .high)) ∧
      Reports s t s.err
        ((if Sparse.read s.clken ch.toNat = 0 then [.clkGate ch.toNat] else []) ++
          (channelDivisor deployed ch.toNat).2.logEvents ++ [.tinit ch.toNat cfg .ok]) ∧
      Over t ∧ KeepsHost s t ∧ KeepsPins s t ∧ t.txf = s.txf ∧ t.res = s.res

/-- R121: a number that names no channel is refused and changes nothing but `STAT.ERR` and the log. -/
def Obligations.ConfigureRefusesUnknownChannel : Prop :=
  ∀ (ch pp : Word) (s : State), deployed.nCh ≤ ch.toNat →
    ∃ t, exec (.configure ch pp) s = .next t ∧ RefusedWith .unresolvableChannel s t

/-- R124, R127: a code of 4 or more: the gate is on and the warning may be set, `TCFG` is untouched and no
transport init is called. -/
def Obligations.ConfigureInvalidPolarity : Prop :=
  ∀ (ch pp : Word) (s : State), s.inputs = [] → Sparse.wf s.clken = true → ch.toNat < deployed.nCh →
    4 ≤ pp.toNat →
    ∃ t, exec (.configure ch pp) s = .next t ∧ Sparse.read t.clken ch.toNat = 1 ∧
      (∀ c, c ≠ ch.toNat → Sparse.read t.clken c = Sparse.read s.clken c) ∧ t.tcfg = s.tcfg ∧
      Reports s t .invalidPolarity
        ((if Sparse.read s.clken ch.toNat = 0 then [.clkGate ch.toNat] else []) ++
          (channelDivisor deployed ch.toNat).2.logEvents ++ [.log .eInvalidPolarity]) ∧
      Over t ∧ KeepsHost s t ∧ KeepsPins s t ∧ t.txf = s.txf ∧ t.res = s.res

/-- R125, R127, R203: the transport init answers fail: the channel is left invalid, whatever else its word
holds; the error is reported. -/
def Obligations.ConfigureTransportInitFails : Prop :=
  ∀ (ch pp : Word) (s : State), s.inputs = [] → Sparse.wf s.clken = true → Sparse.wf s.tcfg = true →
    ch.toNat < deployed.nCh → pp.toNat < 4 → nextAnswer deployed s = .fail →
    ∃ t, exec (.configure ch pp) s = .next t ∧ Sparse.read t.clken ch.toNat = 1 ∧
      channelValid t ch.toNat = false ∧
      (∀ c, c ≠ ch.toNat →
        Sparse.read t.tcfg c = Sparse.read s.tcfg c ∧ Sparse.read t.clken c = Sparse.read s.clken c) ∧
      Reports s t .transportInitFailed
        ((if Sparse.read s.clken ch.toNat = 0 then [.clkGate ch.toNat] else []) ++
          (channelDivisor deployed ch.toNat).2.logEvents ++
          [.tinit ch.toNat (stagedCfg deployed ch.toNat pp) .fail, .log .eTransportInitFailed]) ∧
      Over t ∧ KeepsHost s t ∧ KeepsPins s t ∧ t.txf = s.txf ∧ t.res = s.res

/-- R126: configuring again with the same operands and an ok answer changes no transport register and emits
no clock-gate event. -/
def Obligations.ConfiguringAgainChangesNothing : Prop :=
  ∀ (ch pp : Word) (s : State), s.inputs = [] → Sparse.wf s.clken = true → Sparse.wf s.tcfg = true →
    ch.toNat < deployed.nCh → pp.toNat < 4 → nextAnswer deployed s = .ok →
    Sparse.read s.clken ch.toNat = 1 → Sparse.read s.tcfg ch.toNat = stagedCfg deployed ch.toNat pp ||| 0x0200 →
    ∃ t, exec (.configure ch pp) s = .next t ∧ t.clken = s.clken ∧ t.tcfg = s.tcfg ∧
      Reports s t s.err
        ((channelDivisor deployed ch.toNat).2.logEvents ++
          [.tinit ch.toNat (stagedCfg deployed ch.toNat pp) .ok])

/-! ### The write sequencer -/

/-- R80, R81, R82: the control byte's fields; dropped bits reach no other field, bit 7 is 0. -/
def Obligations.ControlByteLayout : Prop :=
  ∀ (pwm peak : Byte) (sleep : BitVec 1),
    (controlByte pwm peak sleep).extractLsb' 0 4 = pwm.extractLsb' 0 4 ∧
    (controlByte pwm peak sleep).extractLsb' 4 2 = peak.extractLsb' 0 2 ∧
    (controlByte pwm peak sleep).extractLsb' 6 1 = sleep ∧
    (controlByte pwm peak sleep).extractLsb' 7 1 = 0

/-- R43, R85: the frame of four characters, and R48: that of four spaces is the clear frame. -/
def Obligations.FrameOrder : Prop :=
  (∀ f : Four, (frame deployed f).length = 20 ∧
    ∀ i j, i < 4 → j < 5 → (frame deployed f).getD (5 * i + j) 0 = deployed.glyph (f.get i).toNat j) ∧
  frame deployed ⟨32, 32, 32, 32⟩ = clearFrame ∧ clearFrame = List.replicate 20 0x00

/-- R150: `WRCTL` on a configured display writes one control window, whatever the answers. -/
def Obligations.WrctlWritesOneControlByte : Prop :=
  ∀ (pwm peak : Byte) (sleep : BitVec 1) (s : State), s.inputs = [] →
    channelValid s deployed.dispCh = true →
    ∃ t, exec (.wrctl pwm peak sleep) s = .next t ∧
      WroteWindow deployed .ctrl [controlByte pwm peak sleep] s t

/-- R151: `WRGLYPH` on a configured display, every code with a glyph, writes the frame in one window; a code
with no glyph is refused before anything happens. -/
def Obligations.WrglyphWritesTheFrame : Prop :=
  ∀ (c0 c1 c2 c3 : Byte) (s : State), s.inputs = [] → channelValid s deployed.dispCh = true →
    ((∀ c ∈ [c0, c1, c2, c3], c.toNat < deployed.glyphCount) →
      ∃ t, exec (.wrglyph c0 c1 c2 c3) s = .next t ∧
        WroteWindow deployed .dot (frame deployed ⟨c0, c1, c2, c3⟩) s t) ∧
    ((∃ c ∈ [c0, c1, c2, c3], deployed.glyphCount ≤ c.toNat) →
      ∃ t, exec (.wrglyph c0 c1 c2 c3) s = .next t ∧ RefusedWith .glyphIndex s t)

/-- R152: `CLEAR` on a configured display writes 20 zero bytes in one window. -/
def Obligations.ClearWritesTwentyZeroBytes : Prop :=
  ∀ s : State, s.inputs = [] → channelValid s deployed.dispCh = true →
    ∃ t, exec .clear s = .next t ∧ WroteWindow deployed .dot (List.replicate 20 0x00) s t

/-- R149: on a display that is not configured every operation that opens a window, but `INIT`, which
configures it, is refused with `NotConfigured`, whatever its operands (R208). -/
def Obligations.UnconfiguredDisplayIsNotWritten : Prop :=
  ∀ (i : Instr) (s : State),
    ((∃ pwm peak sleep, i = .wrctl pwm peak sleep) ∨ (∃ c0 c1 c2 c3, i = .wrglyph c0 c1 c2 c3) ∨ i = .clear ∨
      (∃ base, i = .scroll base) ∨ (∃ n, i = .renderInt n) ∨ (∃ x, i = .renderFloat x) ∨
      (∃ c, i = .renderErr c)) →
    channelValid s deployed.dispCh = false →
    ∃ t, exec i s = .next t ∧ RefusedWith .notConfigured s t

/-- R88: the pseudo-operations are equivalences of traces and final state: `CLEAR` is `WRGLYPH` of four
spaces, each rendering is `WRGLYPH` of its format, `WAKE` and `SLEEP` are expanded by the assembler. -/
def Obligations.PseudoOperationsAreEquivalences : Prop :=
  (∀ s : State, s.inputs = [] → exec .clear s = exec (.wrglyph 32 32 32 32) s) ∧
  (∀ (n : Word) (s : State), exec (.renderInt n) s =
    exec (.wrglyph (fmtInt n.toInt).c0 (fmtInt n.toInt).c1 (fmtInt n.toInt).c2 (fmtInt n.toInt).c3) s) ∧
  (∀ (x : Word) (s : State), exec (.renderFloat x) s =
    exec (.wrglyph (deployed.fmtFloat x).c0 (deployed.fmtFloat x).c1 (deployed.fmtFloat x).c2
      (deployed.fmtFloat x).c3) s) ∧
  (∀ (c : Word) (s : State), exec (.renderErr c) s =
    exec (.wrglyph (deployed.fmtErr c).c0 (deployed.fmtErr c).c1 (deployed.fmtErr c).c2
      (deployed.fmtErr c).c3) s) ∧
  assemble deployed ⟨.wake, []⟩ =
    some (.wrctl (deployed.pwmFixed.setWidth 8) (deployed.peakFixed.setWidth 8) deployed.wakeS) ∧
  assemble deployed ⟨.sleep, []⟩ =
    some (.wrctl (deployed.pwmFixed.setWidth 8) (deployed.peakFixed.setWidth 8) (1 - deployed.wakeS))

/-- R148, R153: a window run by the machine, whatever its space, its payload and the answers: step 1 and the fall
of chip enable, the payload's transmits, the delay and the rise, the dummy byte; between them nothing but the
transmits and one log entry right after each that failed. The bytes do not depend on the answers; the operation
ends idle, `ERR` as it was, `TXF` set if a transmit failed. -/
def Obligations.FailedTransmitsDoNotStopAWindow : Prop :=
  ∀ (sp : Space) (data : List Datum) (s : State), s.inputs = [] →
    ∃ (t : State) (sent last : List Event),
      runScript deployed (window deployed sp data) s = (t, none) ∧
      t.trace = s.trace ++
        ([.pin .rs (spaceLevel deployed sp), .delayUs deployed.tSettleUs, .pin .ce 0] ++ sent ++
          [.delayUs deployed.tPostUs, .pin .ce 1] ++ last) ∧
      txBytes sent = data.map (datumByte deployed · s) ∧ txBytes last = [0x00] ∧
      txStatuses (sent ++ last) = answersAhead deployed (data.length + 1) s ∧
      (∀ e ∈ sent ++ last, (∃ b st, e = .tx deployed.dispCh b st) ∨ e = .log .eTxFailed) ∧
      (sent ++ last).count (.log .eTxFailed) = (answersAhead deployed (data.length + 1) s).count .fail ∧
      (∀ pre post, sent ++ last = pre ++ Event.log .eTxFailed :: post →
        ∃ pre' b, pre = pre' ++ [.tx deployed.dispCh b .fail]) ∧
      t.ph = .idle ∧ t.ce = 1 ∧ t.err = s.err ∧
      t.txf = (s.txf || anyFail (answersAhead deployed (data.length + 1) s)) ∧ Over t

/-! ### Composite operations -/

/-- R171 to R174: `INIT` whose transport init answers ok: the roles, the configuration, the reset pulse, the
clear, and only then the control byte; the statuses are the next 24 answers. -/
def Obligations.InitRunsItsFiveSteps : Prop :=
  ∀ (pp : Word) (s : State), s.inputs = [] → Sparse.wf s.clken = true → Sparse.wf s.tcfg = true →
    pp.toNat < 4 → nextAnswer deployed s = .ok →
    ∃ t, exec (.init pp) s = .next t ∧
      Reports s t s.err
        ([.gpioCfg] ++ (if Sparse.read s.clken deployed.dispCh = 0 then [.clkGate deployed.dispCh] else []) ++
          (channelDivisor deployed deployed.dispCh).2.logEvents ++
          [.tinit deployed.dispCh (stagedCfg deployed deployed.dispCh pp) .ok, .pin .rst 0,
            .delayMs deployed.tResetMs, .pin .rst 1] ++
          windowEvents deployed .dot (List.replicate 20 0x00)
            (((answersAhead deployed 24 s).drop 1).take 21) ++
          windowEvents deployed .ctrl
            [controlByte (deployed.pwmFixed.setWidth 8) (deployed.peakFixed.setWidth 8) deployed.wakeS]
            ((answersAhead deployed 24 s).drop 22)) ∧
      Sparse.read t.tcfg deployed.dispCh = stagedCfg deployed deployed.dispCh pp ||| 0x0200 ∧
      Sparse.read t.clken deployed.dispCh = 1 ∧
      (∀ c, c ≠ deployed.dispCh →
        Sparse.read t.tcfg c = Sparse.read s.tcfg c ∧ Sparse.read t.clken c = Sparse.read s.clken c) ∧
      t.rst = 1 ∧ t.ce = 1 ∧ t.rs = deployed.rsCtrl ∧ t.ph = .idle ∧
      t.warnLow = (s.warnLow || decide ((channelDivisor deployed deployed.dispCh).2 = .low)) ∧
      t.warnHigh = (s.warnHigh || decide ((channelDivisor deployed deployed.dispCh).2 = .high)) ∧
      t.txf = (s.txf || anyFail ((answersAhead deployed 24 s).drop 1)) ∧
      Over t ∧ KeepsHost s t ∧ t.res = s.res

/-- R171, D23: an error of the configuration ends `INIT` before line 3: the reset pin is not touched and
nothing is sent. The display's gate is on in both cases; after a wrong code its channel is as it was, after a
failed transport init it is invalid; the other channels are as they were. -/
def Obligations.InitStopsAtAConfigurationError : Prop :=
  ∀ (pp : Word) (s : State), s.inputs = [] → Sparse.wf s.clken = true → Sparse.wf s.tcfg = true →
    (4 ≤ pp.toNat →
      ∃ t, exec (.init pp) s = .next t ∧
        Reports s t .invalidPolarity
          ([.gpioCfg] ++ (if Sparse.read s.clken deployed.dispCh = 0 then [.clkGate deployed.dispCh] else []) ++
            (channelDivisor deployed deployed.dispCh).2.logEvents ++ [.log .eInvalidPolarity]) ∧
        Sparse.read t.clken deployed.dispCh = 1 ∧
        (∀ c, c ≠ deployed.dispCh → Sparse.read t.clken c = Sparse.read s.clken c) ∧ t.tcfg = s.tcfg ∧
        KeepsPins s t ∧ t.txf = s.txf ∧ t.res = s.res ∧ Over t ∧ KeepsHost s t) ∧
    (pp.toNat < 4 → nextAnswer deployed s = .fail →
      ∃ t, exec (.init pp) s = .next t ∧
        Reports s t .transportInitFailed
          ([.gpioCfg] ++ (if Sparse.read s.clken deployed.dispCh = 0 then [.clkGate deployed.dispCh] else []) ++
            (channelDivisor deployed deployed.dispCh).2.logEvents ++
            [.tinit deployed.dispCh (stagedCfg deployed deployed.dispCh pp) .fail,
              .log .eTransportInitFailed]) ∧
        Sparse.read t.clken deployed.dispCh = 1 ∧ channelValid t deployed.dispCh = false ∧
        (∀ c, c ≠ deployed.dispCh →
          Sparse.read t.tcfg c = Sparse.read s.tcfg c ∧ Sparse.read t.clken c = Sparse.read s.clken c) ∧
        KeepsPins s t ∧ t.txf = s.txf ∧ t.res = s.res ∧ Over t ∧ KeepsHost s t)

/-- R47: `StrLen(b)` is the least `n` with a 0x00 at `b + n <= 255`, undefined if there is none. -/
def Obligations.StringLengthIsTheFirstTerminator : Prop :=
  ∀ (m : Memory) (b n : Nat), b ≤ 255 →
    (strLen m b = some n ↔
      b + n ≤ 255 ∧ Memory.read m (b + n) = 0x00 ∧ ∀ k, k < n → Memory.read m (b + k) ≠ 0x00) ∧
    (strLen m b = none ↔ ∀ k, b + k ≤ 255 → Memory.read m (b + k) ≠ 0x00)

/-- R175, R177, R178: `SCROLL` of a terminated string of characters with glyphs, on a configured display,
writes its frames with a pause between each two: a string of at most 3 once, padded with spaces; a longer one
as windows of four characters, each one later. -/
def Obligations.ScrollWritesItsFrames : Prop :=
  ∀ (base : BitVec 8) (n : Nat) (s : State), s.inputs = [] → s.stale = [] →
    channelValid s deployed.dispCh = true → strLen s.txt base.toNat = some n →
    (∀ k, k < n → (Memory.read s.txt (base.toNat + k)).toNat < deployed.glyphCount) →
    ∃ t, exec (.scroll base) s = .next t ∧
      Reports s t s.err
        (framesEvents deployed (scrollFrames s.txt base.toNat n)
          (answersAhead deployed (21 * (scrollFrames s.txt base.toNat n).length) s)) ∧
      t.txf = (s.txf || anyFail (answersAhead deployed (21 * (scrollFrames s.txt base.toNat n).length) s)) ∧
      t.rs = deployed.rsDot ∧ t.ce = 1 ∧ t.ph = .idle ∧ Over t ∧ DisplayWriteFrame s t

/-- R176, R208: the refusals of `SCROLL` on a configured display, in their order, before any frame. -/
def Obligations.ScrollRefusals : Prop :=
  ∀ (base : BitVec 8) (s : State), channelValid s deployed.dispCh = true →
    (strLen s.txt base.toNat = none →
      ∃ t, exec (.scroll base) s = .next t ∧ RefusedWith .illegalOperand s t) ∧
    (∀ n, strLen s.txt base.toNat = some n →
      (∃ k, k < n ∧ deployed.glyphCount ≤ (Memory.read s.txt (base.toNat + k)).toNat) →
      ∃ t, exec (.scroll base) s = .next t ∧ RefusedWith .glyphIndex s t)

/-- R179, R260, R265: a `SCROLL` of a terminated string of length `n`, on a configured display, writes
`max(1, n - 3)` frames with a pause between each two consecutive ones, none before the first and none after the
last; with every answer ok it adds `26f + (f-1)` events for `f` frames; whatever the answers it lasts at least
`1000(f-1)` milliseconds, to which the windows add their own least times. -/
def Obligations.ScrollFramesAndPauses : Prop :=
  ∀ (base : BitVec 8) (n f : Nat) (s : State), s.inputs = [] → s.stale = [] →
    channelValid s deployed.dispCh = true → strLen s.txt base.toNat = some n →
    (∀ k, k < n → (Memory.read s.txt (base.toNat + k)).toNat < deployed.glyphCount) → f = max 1 (n - 3) →
    ∃ t es, exec (.scroll base) s = .next t ∧ t.trace = s.trace ++ es ∧
      es.count (.pin .ce 0) = f ∧ es.count (.pin .ce 1) = f ∧ es.count (.delayMs 1000) = f - 1 ∧
      (∀ pre post, es = pre ++ Event.delayMs 1000 :: post →
        pre.count (.pin .ce 0) = pre.count (.delayMs 1000) + 1 ∧
          pre.count (.pin .ce 1) = pre.count (.delayMs 1000) + 1 ∧
          post.head? = some (.pin .rs deployed.rsDot)) ∧
      ((∀ st ∈ answersAhead deployed (21 * f) s, st = .ok) → es.length = 26 * f + (f - 1)) ∧
      1000 * 1000 * ((f - 1 : Nat) : Rat) ≤ leastMicros deployed s.tcfg es ∧
      leastMicros deployed s.tcfg es =
        1000 * 1000 * ((f - 1 : Nat) : Rat) +
          (f : Rat) * ((deployed.tSettleUs : Rat) + (deployed.tPostUs : Rat) +
            21 * byteMicros deployed deployed.dispCh (cfgBr (Sparse.read s.tcfg deployed.dispCh)))

/-- R181: `FMT_INT`, digit by digit: zero-padded to four, a sign taking one place, and a longer number cut
after four characters. -/
def Obligations.IntegerFormat : Prop :=
  (∀ n : Nat, n ≤ 9999 → fmtInt n =
    ⟨digitCode (n / 1000), digitCode (n / 100 % 10), digitCode (n / 10 % 10), digitCode (n % 10)⟩) ∧
  (∀ n k : Nat, 1 ≤ k → k ≤ 6 → 10 ^ (k + 3) ≤ n → n < 10 ^ (k + 4) →
    fmtInt n = fmtInt ((n / 10 ^ k : Nat) : Int)) ∧
  (∀ n : Nat, 1 ≤ n → n ≤ 999 → fmtInt (-(n : Int)) =
    ⟨0x2D, digitCode (n / 100), digitCode (n / 10 % 10), digitCode (n % 10)⟩) ∧
  (∀ n k : Nat, 1 ≤ k → k ≤ 7 → 10 ^ (k + 2) ≤ n → n < 10 ^ (k + 3) →
    fmtInt (-(n : Int)) = fmtInt (-((n / 10 ^ k : Nat) : Int)))

/-- R180, R182, R183, R184: each rendering on a configured display writes exactly one frame, that of its four
codes, or, if one of them has no glyph, is refused; what is cut is not reported. -/
def Obligations.RenderingsWriteOneFrame : Prop :=
  ∀ (i : Instr) (f : Four) (s : State), s.inputs = [] → channelValid s deployed.dispCh = true →
    ((∃ n, i = .renderInt n ∧ f = fmtInt n.toInt) ∨ (∃ x, i = .renderFloat x ∧ f = deployed.fmtFloat x) ∨
      (∃ c, i = .renderErr c ∧ f = deployed.fmtErr c)) →
    ((∀ c ∈ [f.c0, f.c1, f.c2, f.c3], c.toNat < deployed.glyphCount) →
      ∃ t, exec i s = .next t ∧ WroteWindow deployed .dot (frame deployed f) s t) ∧
    ((∃ c ∈ [f.c0, f.c1, f.c2, f.c3], deployed.glyphCount ≤ c.toNat) →
      ∃ t, exec i s = .next t ∧ RefusedWith .glyphIndex s t)

/-! ### Text memory -/

/-- R44, R66: a byte the host writes is read back, every other byte and every register of the block stays;
while `BUSY = 1` the byte it replaces is remembered (the model's own field, log 13). -/
def Obligations.HostWriteOfText : Prop :=
  ∀ (s : State) (a : BitVec 8) (v : Byte) (rest : List HostInput), Memory.wf s.txt = true →
    s.inputs = ⟨0, .writeTxt a v⟩ :: rest →
    ∃ t, step s = .next t ∧ Memory.read t.txt a.toNat = v ∧
      (∀ x, x ≠ a.toNat → Memory.read t.txt x = Memory.read s.txt x) ∧ Memory.wf t.txt = true ∧
      t = { s with txt := t.txt, inputs := rest, stale := t.stale } ∧
      heldBytes t a.toNat = (if s.busy then v :: heldBytes s a.toNat else v :: (heldBytes s a.toNat).tail)

/-- R44: no operation but `SCROLL` reads `TXT`: a byte the host writes in the middle of any other operation
changes that byte and nothing else of what the operation leaves (where a write can land: log 11). -/
def Obligations.TextWriteDisturbsOnlyScroll : Prop :=
  ∀ (i : Instr) (n : Nat) (addr : BitVec 8) (v : Byte) (s : State), (∀ base, i ≠ .scroll base) →
    s.busy = true → s.todo = [] → s.inputs = [] →
    ∃ r t, exec i s = .next r ∧ exec i { s with inputs := [⟨n, .writeTxt addr v⟩] } = .next t ∧
      (t.busy = false → t = { r with inputs := t.inputs }) ∧
      (t.busy = true → ∃ u, step t = .next u ∧
        step u = .next { r with txt := Memory.write s.txt addr.toNat v })

/-- U14: a frame's read of a byte changed while `BUSY` gives one of the bytes it has held since the command
was accepted (the model's reading of "old or new", log 13); of an unchanged byte, the byte. -/
def Obligations.ChangedTextReadsOldOrNew : Prop :=
  ∀ (s : State) (a : Nat), (readText deployed a s).1 ∈ heldBytes s a ∧
    ((∀ e ∈ s.stale, e.1 ≠ a) → readText deployed a s = (Memory.read s.txt a, s))

/-- U14: a frame of a running `SCROLL`, of `n` characters and then spaces, faults when a character it reads can
only be a code with no glyph, and goes on when every byte it can read has one (log 13). -/
def Obligations.ChangedTextPastTheTableFaults : Prop :=
  ∀ (s : State) (addr n : Nat) (rest : List Action), inputDue s = false → s.busy = true → n ≤ 4 →
    s.todo = .loadText addr n :: rest →
    ((∃ k, k < n ∧ ∀ v ∈ heldBytes s (addr + k), deployed.glyphCount ≤ v.toNat) →
      ∃ c, step s = .fault (.glyphPastTable c) ∧ deployed.glyphCount ≤ c.toNat ∧
        ∃ k, k < n ∧ c ∈ heldBytes s (addr + k)) ∧
    ((∀ k, k < n → ∀ v ∈ heldBytes s (addr + k), v.toNat < deployed.glyphCount) →
      ∃ f u, (∀ k, k < n → f.get k ∈ heldBytes s (addr + k)) ∧ (∀ k, n ≤ k → k < 4 → f.get k = space) ∧
        u = { s with todo := [], ch4 := f, inputs := (passTime s).inputs, fresh := u.fresh } ∧
        step s = runOutcome (runScript deployed rest u))

/-! ### The link and the device -/

/-- R50, R52, R53: a byte leaves in eight clock periods, bit 7 first; a receiver that samples on the sampling
edge gets it; the clock starts from its rest level and ends there. With `CPHA = 0` each bit is on `SDO` from
before the leading edge up to the trailing one, on or after which `SDO` changes; with `CPHA = 1` `SDO` changes
on or after the leading edge and holds the bit across the trailing one. Of the settings of R20 only. -/
def Obligations.WaveformCarriesTheByte : Prop :=
  ∀ (cfg : BitVec 16) (b : Byte), cfgLsbf cfg = 0 → cfgW16 cfg = 0 →
    (waveform cfg b).length = 8 ∧ sampled (waveform cfg b) = b.toNat ∧
    (∀ k, k < 8 → ((waveform cfg b).map ClockPeriod.sdo).getD k 0 = b.extractLsb' (7 - k) 1) ∧
    (∀ c ∈ waveform cfg b, c.leading ≠ c.trailing ∧ (c.leading = .rising ↔ restLevel cfg = 0)) ∧
    (clockLevels cfg b).length = 16 ∧ (clockLevels cfg b).getLast? = some (restLevel cfg) ∧
    (clockLevels cfg b).head? = some (~~~restLevel cfg) ∧
    (byteEdges cfg b).length = 16 ∧
    (cfgCpha cfg = 0 → ∀ k, k < 8 →
      (byteEdges cfg b)[2 * k]? =
        some ⟨.leading, leadingEdge cfg, some (b.extractLsb' (7 - k) 1), some (b.extractLsb' (7 - k) 1)⟩ ∧
      (byteEdges cfg b)[2 * k + 1]? =
        some ⟨.trailing, trailingEdge cfg, some (b.extractLsb' (7 - k) 1), none⟩) ∧
    (cfgCpha cfg = 1 → ∀ k, k < 8 →
      (byteEdges cfg b)[2 * k]? =
        some ⟨.leading, leadingEdge cfg, if k = 0 then none else some (b.extractLsb' (8 - k) 1), none⟩ ∧
      (byteEdges cfg b)[2 * k + 1]? =
        some ⟨.trailing, trailingEdge cfg, some (b.extractLsb' (7 - k) 1), some (b.extractLsb' (7 - k) 1)⟩)

/-- R42: the bit clock of a channel configured with entry `k`. -/
def Obligations.BitClockOfAnEntry : Prop :=
  ∀ ch k : Nat, k < 8 →
    bitClock deployed ch (prescCode deployed k) =
      some ((deployed.busFreq (deployed.chDom ch) : Rat) / (2 ^ (k + 1) : Nat))

/-- R54, R265: the least time of the events a window adds, whatever its space, its payload and the answers: the
two delays, and eight bit periods for every payload byte and for the dummy byte. -/
def Obligations.WindowLeastTime : Prop :=
  ∀ (sp : Space) (data : List Datum) (s : State), s.inputs = [] →
    ∃ t es, runScript deployed (window deployed sp data) s = (t, none) ∧ t.trace = s.trace ++ es ∧
      leastMicros deployed s.tcfg es =
        (deployed.tSettleUs : Rat) + (deployed.tPostUs : Rat) +
          ((data.length : Rat) + 1) *
            byteMicros deployed deployed.dispCh (cfgBr (Sparse.read s.tcfg deployed.dispCh))

/-- R58 to R62, R153: after a write whose transmits all succeed, a device that was between windows holds the
payload in the space written, keeps the other register, and the protocol was kept
(details of the shadow: log 20). -/
def Obligations.DeviceHoldsWhatWasWritten : Prop :=
  ∀ s : State, s.inputs = [] → channelValid s deployed.dispCh = true → (s.shadow deployed).Quiet →
    (∀ pwm peak sleep, (∀ st ∈ answersAhead deployed 2 s, st = .ok) →
      ∃ t, exec (.wrctl pwm peak sleep) s = .next t ∧ (t.shadow deployed).Quiet ∧
        (t.shadow deployed).ctrl = some (controlByte pwm peak sleep) ∧
        (t.shadow deployed).dot = (s.shadow deployed).dot) ∧
    (∀ c0 c1 c2 c3 : Byte, (∀ st ∈ answersAhead deployed 21 s, st = .ok) →
      (∀ c ∈ [c0, c1, c2, c3], c.toNat < deployed.glyphCount) →
      ∃ t, exec (.wrglyph c0 c1 c2 c3) s = .next t ∧ (t.shadow deployed).Quiet ∧
        (t.shadow deployed).dot = some (frame deployed ⟨c0, c1, c2, c3⟩) ∧
        (t.shadow deployed).ctrl = (s.shadow deployed).ctrl) ∧
    ((∀ st ∈ answersAhead deployed 21 s, st = .ok) →
      ∃ t, exec .clear s = .next t ∧ (t.shadow deployed).Quiet ∧
        (t.shadow deployed).dot = some (List.replicate 20 0x00) ∧
        (t.shadow deployed).ctrl = (s.shadow deployed).ctrl)

/-- R153, R250 to R253, R258: every operation, whatever its operands, its outcome and the answers, keeps the
device's protocol and leaves it between windows. -/
def Obligations.EveryOperationKeepsTheProtocol : Prop :=
  ∀ (i : Instr) (s t : State), s.inputs = [] → (s.shadow deployed).Quiet → exec i s = .next t →
    (t.shadow deployed).Quiet

/-- R265: the least time of an `INIT` whose transport init answers ok: the hold of the reset pin and two
windows, of 20 bytes and of one. -/
def Obligations.InitLeastTime : Prop :=
  ∀ (pp : Word) (s : State), s.inputs = [] → Sparse.wf s.clken = true → Sparse.wf s.tcfg = true →
    pp.toNat < 4 → nextAnswer deployed s = .ok →
    ∃ t es, exec (.init pp) s = .next t ∧ t.trace = s.trace ++ es ∧
      leastMicros deployed s.tcfg es =
        1000 * (deployed.tResetMs : Rat) + 2 * ((deployed.tSettleUs : Rat) + (deployed.tPostUs : Rat)) +
          (21 + 2) *
            byteMicros deployed deployed.dispCh (prescCode deployed (channelDivisor deployed deployed.dispCh).1)
end

