-- ==== Sys2Proof/Laws/Encoding.lean ====
section
/-! SUPPORT. A command word is its three fields and nothing else (R70); masks act on it field by field. -/

namespace Sys2Proof

theorem getLsbD_commandWord (op : BitVec 8) (a b : Word) (i : Nat) :
    (commandWord op a b).getLsbD i =
      if i < 32 then b.getLsbD i else if i < 64 then a.getLsbD (i - 32) else op.getLsbD (i - 64) := by
  have h1 := BitVec.getLsbD_append (x := op ++ a) (y := b) (i := i)
  rw [BitVec.getLsbD_append (x := op) (y := a) (i := i - 32)] at h1
  refine h1.trans ?_
  by_cases h : i < 32
  · simp [h]
  · by_cases h' : i < 64
    · simp [h, h', show i - 32 < 32 by omega]
    · simp [h, h', show ¬ i - 32 < 32 by omega, show i - 32 - 32 = i - 64 by omega]

@[simp] theorem opField_commandWord (op : BitVec 8) (a b : Word) : opField (commandWord op a b) = op := by
  apply BitVec.eq_of_getLsbD_eq
  intro i hi
  simp [opField, getLsbD_commandWord, hi, show ¬ 64 + i < 32 by omega]

@[simp] theorem aField_commandWord (op : BitVec 8) (a b : Word) : aField (commandWord op a b) = a := by
  apply BitVec.eq_of_getLsbD_eq
  intro i hi
  simp [aField, getLsbD_commandWord, hi, show 32 + i < 64 by omega]

@[simp] theorem bField_commandWord (op : BitVec 8) (a b : Word) : bField (commandWord op a b) = b := by
  apply BitVec.eq_of_getLsbD_eq
  intro i hi
  simp [bField, getLsbD_commandWord, hi]

theorem commandWord_fields (cw : CmdWord) : commandWord (opField cw) (aField cw) (bField cw) = cw := by
  apply BitVec.eq_of_getLsbD_eq
  intro i hi
  rw [getLsbD_commandWord]
  simp only [opField, aField, bField, BitVec.getLsbD_extractLsb']
  split_ifs with h1 h2
  · simp [h1]
  · simp [show 32 + (i - 32) = i by omega, show i - 32 < 32 by omega]
  · simp [show 64 + (i - 64) = i by omega, show i - 64 < 8 by omega]

/-- Two command words are equal when their fields are. -/
theorem cmdWord_ext {cw cw' : CmdWord} (h1 : opField cw = opField cw') (h2 : aField cw = aField cw')
    (h3 : bField cw = bField cw') : cw = cw' := by
  rw [← commandWord_fields cw, ← commandWord_fields cw', h1, h2, h3]

/-- A mask acts on each field by itself. -/
@[simp] theorem opField_and (cw m : CmdWord) : opField (cw &&& m) = opField cw &&& opField m := by
  apply BitVec.eq_of_getLsbD_eq
  intro i hi
  simp [opField, hi]

@[simp] theorem aField_and (cw m : CmdWord) : aField (cw &&& m) = aField cw &&& aField m := by
  apply BitVec.eq_of_getLsbD_eq
  intro i hi
  simp [aField, hi]

@[simp] theorem bField_and (cw m : CmdWord) : bField (cw &&& m) = bField cw &&& bField m := by
  apply BitVec.eq_of_getLsbD_eq
  intro i hi
  simp [bField, hi]

end Sys2Proof
end

