-- ==== Sys2Proof/Laws/State.lean ====
section
/-! SUPPORT. One lemma per field per update of the state, so that no proof unfolds a record update; the
updates that a draw decides have one closed form each. -/

namespace Sys2Proof.Machine

/-! ### `emit` -/

@[simp] theorem emit_op (e : Event) (s : State) : (emit e s).op = s.op := rfl
@[simp] theorem emit_a (e : Event) (s : State) : (emit e s).a = s.a := rfl
@[simp] theorem emit_b (e : Event) (s : State) : (emit e s).b = s.b := rfl
@[simp] theorem emit_busy (e : Event) (s : State) : (emit e s).busy = s.busy := rfl
@[simp] theorem emit_ph (e : Event) (s : State) : (emit e s).ph = s.ph := rfl
@[simp] theorem emit_idx (e : Event) (s : State) : (emit e s).idx = s.idx := rfl
@[simp] theorem emit_ch4 (e : Event) (s : State) : (emit e s).ch4 = s.ch4 := rfl
@[simp] theorem emit_win (e : Event) (s : State) : (emit e s).win = s.win := rfl
@[simp] theorem emit_len (e : Event) (s : State) : (emit e s).len = s.len := rfl
@[simp] theorem emit_err (e : Event) (s : State) : (emit e s).err = s.err := rfl
@[simp] theorem emit_warnLow (e : Event) (s : State) : (emit e s).warnLow = s.warnLow := rfl
@[simp] theorem emit_warnHigh (e : Event) (s : State) : (emit e s).warnHigh = s.warnHigh := rfl
@[simp] theorem emit_txf (e : Event) (s : State) : (emit e s).txf = s.txf := rfl
@[simp] theorem emit_res (e : Event) (s : State) : (emit e s).res = s.res := rfl
@[simp] theorem emit_clken (e : Event) (s : State) : (emit e s).clken = s.clken := rfl
@[simp] theorem emit_tcfg (e : Event) (s : State) : (emit e s).tcfg = s.tcfg := rfl
@[simp] theorem emit_ce (e : Event) (s : State) : (emit e s).ce = s.ce := rfl
@[simp] theorem emit_rs (e : Event) (s : State) : (emit e s).rs = s.rs := rfl
@[simp] theorem emit_rst (e : Event) (s : State) : (emit e s).rst = s.rst := rfl
@[simp] theorem emit_trace (e : Event) (s : State) : (emit e s).trace = s.trace ++ [e] := rfl
@[simp] theorem emit_todo (e : Event) (s : State) : (emit e s).todo = s.todo := rfl
@[simp] theorem emit_txt (e : Event) (s : State) : (emit e s).txt = s.txt := rfl
@[simp] theorem emit_port (e : Event) (s : State) : (emit e s).port = s.port := rfl
@[simp] theorem emit_inputs (e : Event) (s : State) : (emit e s).inputs = s.inputs := rfl
@[simp] theorem emit_stale (e : Event) (s : State) : (emit e s).stale = s.stale := rfl
@[simp] theorem emit_answers (e : Event) (s : State) : (emit e s).answers = s.answers := rfl
@[simp] theorem emit_fresh (e : Event) (s : State) : (emit e s).fresh = s.fresh := rfl
@[simp] theorem emit_dev0 (e : Event) (s : State) : (emit e s).dev0 = s.dev0 := rfl

/-! ### `emitAll` -/

@[simp] theorem emitAll_op (es : List Event) (s : State) : (emitAll es s).op = s.op := rfl
@[simp] theorem emitAll_a (es : List Event) (s : State) : (emitAll es s).a = s.a := rfl
@[simp] theorem emitAll_b (es : List Event) (s : State) : (emitAll es s).b = s.b := rfl
@[simp] theorem emitAll_busy (es : List Event) (s : State) : (emitAll es s).busy = s.busy := rfl
@[simp] theorem emitAll_ph (es : List Event) (s : State) : (emitAll es s).ph = s.ph := rfl
@[simp] theorem emitAll_idx (es : List Event) (s : State) : (emitAll es s).idx = s.idx := rfl
@[simp] theorem emitAll_ch4 (es : List Event) (s : State) : (emitAll es s).ch4 = s.ch4 := rfl
@[simp] theorem emitAll_win (es : List Event) (s : State) : (emitAll es s).win = s.win := rfl
@[simp] theorem emitAll_len (es : List Event) (s : State) : (emitAll es s).len = s.len := rfl
@[simp] theorem emitAll_err (es : List Event) (s : State) : (emitAll es s).err = s.err := rfl
@[simp] theorem emitAll_warnLow (es : List Event) (s : State) : (emitAll es s).warnLow = s.warnLow := rfl
@[simp] theorem emitAll_warnHigh (es : List Event) (s : State) : (emitAll es s).warnHigh = s.warnHigh := rfl
@[simp] theorem emitAll_txf (es : List Event) (s : State) : (emitAll es s).txf = s.txf := rfl
@[simp] theorem emitAll_res (es : List Event) (s : State) : (emitAll es s).res = s.res := rfl
@[simp] theorem emitAll_clken (es : List Event) (s : State) : (emitAll es s).clken = s.clken := rfl
@[simp] theorem emitAll_tcfg (es : List Event) (s : State) : (emitAll es s).tcfg = s.tcfg := rfl
@[simp] theorem emitAll_ce (es : List Event) (s : State) : (emitAll es s).ce = s.ce := rfl
@[simp] theorem emitAll_rs (es : List Event) (s : State) : (emitAll es s).rs = s.rs := rfl
@[simp] theorem emitAll_rst (es : List Event) (s : State) : (emitAll es s).rst = s.rst := rfl
@[simp] theorem emitAll_trace (es : List Event) (s : State) : (emitAll es s).trace = s.trace ++ es := rfl
@[simp] theorem emitAll_todo (es : List Event) (s : State) : (emitAll es s).todo = s.todo := rfl
@[simp] theorem emitAll_txt (es : List Event) (s : State) : (emitAll es s).txt = s.txt := rfl
@[simp] theorem emitAll_port (es : List Event) (s : State) : (emitAll es s).port = s.port := rfl
@[simp] theorem emitAll_inputs (es : List Event) (s : State) : (emitAll es s).inputs = s.inputs := rfl
@[simp] theorem emitAll_stale (es : List Event) (s : State) : (emitAll es s).stale = s.stale := rfl
@[simp] theorem emitAll_answers (es : List Event) (s : State) : (emitAll es s).answers = s.answers := rfl
@[simp] theorem emitAll_fresh (es : List Event) (s : State) : (emitAll es s).fresh = s.fresh := rfl
@[simp] theorem emitAll_dev0 (es : List Event) (s : State) : (emitAll es s).dev0 = s.dev0 := rfl

/-! ### `setPhase` -/

@[simp] theorem setPhase_op (v : Phase) (s : State) : (setPhase v s).op = s.op := rfl
@[simp] theorem setPhase_a (v : Phase) (s : State) : (setPhase v s).a = s.a := rfl
@[simp] theorem setPhase_b (v : Phase) (s : State) : (setPhase v s).b = s.b := rfl
@[simp] theorem setPhase_busy (v : Phase) (s : State) : (setPhase v s).busy = s.busy := rfl
@[simp] theorem setPhase_ph (v : Phase) (s : State) : (setPhase v s).ph = v := rfl
@[simp] theorem setPhase_idx (v : Phase) (s : State) : (setPhase v s).idx = s.idx := rfl
@[simp] theorem setPhase_ch4 (v : Phase) (s : State) : (setPhase v s).ch4 = s.ch4 := rfl
@[simp] theorem setPhase_win (v : Phase) (s : State) : (setPhase v s).win = s.win := rfl
@[simp] theorem setPhase_len (v : Phase) (s : State) : (setPhase v s).len = s.len := rfl
@[simp] theorem setPhase_err (v : Phase) (s : State) : (setPhase v s).err = s.err := rfl
@[simp] theorem setPhase_warnLow (v : Phase) (s : State) : (setPhase v s).warnLow = s.warnLow := rfl
@[simp] theorem setPhase_warnHigh (v : Phase) (s : State) : (setPhase v s).warnHigh = s.warnHigh := rfl
@[simp] theorem setPhase_txf (v : Phase) (s : State) : (setPhase v s).txf = s.txf := rfl
@[simp] theorem setPhase_res (v : Phase) (s : State) : (setPhase v s).res = s.res := rfl
@[simp] theorem setPhase_clken (v : Phase) (s : State) : (setPhase v s).clken = s.clken := rfl
@[simp] theorem setPhase_tcfg (v : Phase) (s : State) : (setPhase v s).tcfg = s.tcfg := rfl
@[simp] theorem setPhase_ce (v : Phase) (s : State) : (setPhase v s).ce = s.ce := rfl
@[simp] theorem setPhase_rs (v : Phase) (s : State) : (setPhase v s).rs = s.rs := rfl
@[simp] theorem setPhase_rst (v : Phase) (s : State) : (setPhase v s).rst = s.rst := rfl
@[simp] theorem setPhase_trace (v : Phase) (s : State) : (setPhase v s).trace = s.trace := rfl
@[simp] theorem setPhase_todo (v : Phase) (s : State) : (setPhase v s).todo = s.todo := rfl
@[simp] theorem setPhase_txt (v : Phase) (s : State) : (setPhase v s).txt = s.txt := rfl
@[simp] theorem setPhase_port (v : Phase) (s : State) : (setPhase v s).port = s.port := rfl
@[simp] theorem setPhase_inputs (v : Phase) (s : State) : (setPhase v s).inputs = s.inputs := rfl
@[simp] theorem setPhase_stale (v : Phase) (s : State) : (setPhase v s).stale = s.stale := rfl
@[simp] theorem setPhase_answers (v : Phase) (s : State) : (setPhase v s).answers = s.answers := rfl
@[simp] theorem setPhase_fresh (v : Phase) (s : State) : (setPhase v s).fresh = s.fresh := rfl
@[simp] theorem setPhase_dev0 (v : Phase) (s : State) : (setPhase v s).dev0 = s.dev0 := rfl

/-! ### `accept` -/

@[simp] theorem accept_op (cw : CmdWord) (s : State) : (accept cw s).op = opField cw := rfl
@[simp] theorem accept_a (cw : CmdWord) (s : State) : (accept cw s).a = aField cw := rfl
@[simp] theorem accept_b (cw : CmdWord) (s : State) : (accept cw s).b = bField cw := rfl
@[simp] theorem accept_busy (cw : CmdWord) (s : State) : (accept cw s).busy = true := rfl
@[simp] theorem accept_ph (cw : CmdWord) (s : State) : (accept cw s).ph = s.ph := rfl
@[simp] theorem accept_idx (cw : CmdWord) (s : State) : (accept cw s).idx = s.idx := rfl
@[simp] theorem accept_ch4 (cw : CmdWord) (s : State) : (accept cw s).ch4 = s.ch4 := rfl
@[simp] theorem accept_win (cw : CmdWord) (s : State) : (accept cw s).win = s.win := rfl
@[simp] theorem accept_len (cw : CmdWord) (s : State) : (accept cw s).len = s.len := rfl
@[simp] theorem accept_err (cw : CmdWord) (s : State) : (accept cw s).err = .noError := rfl
@[simp] theorem accept_warnLow (cw : CmdWord) (s : State) : (accept cw s).warnLow = false := rfl
@[simp] theorem accept_warnHigh (cw : CmdWord) (s : State) : (accept cw s).warnHigh = false := rfl
@[simp] theorem accept_txf (cw : CmdWord) (s : State) : (accept cw s).txf = false := rfl
@[simp] theorem accept_res (cw : CmdWord) (s : State) : (accept cw s).res = s.res := rfl
@[simp] theorem accept_clken (cw : CmdWord) (s : State) : (accept cw s).clken = s.clken := rfl
@[simp] theorem accept_tcfg (cw : CmdWord) (s : State) : (accept cw s).tcfg = s.tcfg := rfl
@[simp] theorem accept_ce (cw : CmdWord) (s : State) : (accept cw s).ce = s.ce := rfl
@[simp] theorem accept_rs (cw : CmdWord) (s : State) : (accept cw s).rs = s.rs := rfl
@[simp] theorem accept_rst (cw : CmdWord) (s : State) : (accept cw s).rst = s.rst := rfl
@[simp] theorem accept_trace (cw : CmdWord) (s : State) : (accept cw s).trace = s.trace := rfl
@[simp] theorem accept_todo (cw : CmdWord) (s : State) : (accept cw s).todo = s.todo := rfl
@[simp] theorem accept_txt (cw : CmdWord) (s : State) : (accept cw s).txt = s.txt := rfl
@[simp] theorem accept_port (cw : CmdWord) (s : State) : (accept cw s).port = s.port := rfl
@[simp] theorem accept_inputs (cw : CmdWord) (s : State) : (accept cw s).inputs = s.inputs := rfl
@[simp] theorem accept_stale (cw : CmdWord) (s : State) : (accept cw s).stale = s.stale := rfl
@[simp] theorem accept_answers (cw : CmdWord) (s : State) : (accept cw s).answers = s.answers := rfl
@[simp] theorem accept_fresh (cw : CmdWord) (s : State) : (accept cw s).fresh = s.fresh := rfl
@[simp] theorem accept_dev0 (cw : CmdWord) (s : State) : (accept cw s).dev0 = s.dev0 := rfl

/-! ### `endOperation` -/

@[simp] theorem endOperation_op (p : Params) (s : State) : (endOperation p s).op = s.op := rfl
@[simp] theorem endOperation_a (p : Params) (s : State) : (endOperation p s).a = s.a := rfl
@[simp] theorem endOperation_b (p : Params) (s : State) : (endOperation p s).b = s.b := rfl
@[simp] theorem endOperation_busy (p : Params) (s : State) : (endOperation p s).busy = false := rfl
@[simp] theorem endOperation_ph (p : Params) (s : State) : (endOperation p s).ph = s.ph := rfl
@[simp] theorem endOperation_idx (p : Params) (s : State) : (endOperation p s).idx = p.freeIdx s.fresh := rfl
@[simp] theorem endOperation_ch4 (p : Params) (s : State) : (endOperation p s).ch4 = p.freeCh4 s.fresh := rfl
@[simp] theorem endOperation_win (p : Params) (s : State) : (endOperation p s).win = p.freeWin s.fresh := rfl
@[simp] theorem endOperation_len (p : Params) (s : State) : (endOperation p s).len = p.freeLen s.fresh := rfl
@[simp] theorem endOperation_err (p : Params) (s : State) : (endOperation p s).err = s.err := rfl
@[simp] theorem endOperation_warnLow (p : Params) (s : State) : (endOperation p s).warnLow = s.warnLow := rfl
@[simp] theorem endOperation_warnHigh (p : Params) (s : State) : (endOperation p s).warnHigh = s.warnHigh := rfl
@[simp] theorem endOperation_txf (p : Params) (s : State) : (endOperation p s).txf = s.txf := rfl
@[simp] theorem endOperation_res (p : Params) (s : State) : (endOperation p s).res = s.res := rfl
@[simp] theorem endOperation_clken (p : Params) (s : State) : (endOperation p s).clken = s.clken := rfl
@[simp] theorem endOperation_tcfg (p : Params) (s : State) : (endOperation p s).tcfg = s.tcfg := rfl
@[simp] theorem endOperation_ce (p : Params) (s : State) : (endOperation p s).ce = s.ce := rfl
@[simp] theorem endOperation_rs (p : Params) (s : State) : (endOperation p s).rs = s.rs := rfl
@[simp] theorem endOperation_rst (p : Params) (s : State) : (endOperation p s).rst = s.rst := rfl
@[simp] theorem endOperation_trace (p : Params) (s : State) : (endOperation p s).trace = s.trace := rfl
@[simp] theorem endOperation_todo (p : Params) (s : State) : (endOperation p s).todo = [] := rfl
@[simp] theorem endOperation_txt (p : Params) (s : State) : (endOperation p s).txt = s.txt := rfl
@[simp] theorem endOperation_port (p : Params) (s : State) : (endOperation p s).port = s.port := rfl
@[simp] theorem endOperation_inputs (p : Params) (s : State) : (endOperation p s).inputs = s.inputs := rfl
@[simp] theorem endOperation_stale (p : Params) (s : State) : (endOperation p s).stale = [] := rfl
@[simp] theorem endOperation_answers (p : Params) (s : State) : (endOperation p s).answers = s.answers := rfl
@[simp] theorem endOperation_fresh (p : Params) (s : State) : (endOperation p s).fresh = s.fresh + 1 := rfl
@[simp] theorem endOperation_dev0 (p : Params) (s : State) : (endOperation p s).dev0 = s.dev0 := rfl

/-! ### `recordError` -/

@[simp] theorem recordError_op (e : Err) (s : State) : (recordError e s).op = s.op := rfl
@[simp] theorem recordError_a (e : Err) (s : State) : (recordError e s).a = s.a := rfl
@[simp] theorem recordError_b (e : Err) (s : State) : (recordError e s).b = s.b := rfl
@[simp] theorem recordError_busy (e : Err) (s : State) : (recordError e s).busy = s.busy := rfl
@[simp] theorem recordError_ph (e : Err) (s : State) : (recordError e s).ph = s.ph := rfl
@[simp] theorem recordError_idx (e : Err) (s : State) : (recordError e s).idx = s.idx := rfl
@[simp] theorem recordError_ch4 (e : Err) (s : State) : (recordError e s).ch4 = s.ch4 := rfl
@[simp] theorem recordError_win (e : Err) (s : State) : (recordError e s).win = s.win := rfl
@[simp] theorem recordError_len (e : Err) (s : State) : (recordError e s).len = s.len := rfl
@[simp] theorem recordError_err (e : Err) (s : State) : (recordError e s).err = e := rfl
@[simp] theorem recordError_warnLow (e : Err) (s : State) : (recordError e s).warnLow = s.warnLow := rfl
@[simp] theorem recordError_warnHigh (e : Err) (s : State) : (recordError e s).warnHigh = s.warnHigh := rfl
@[simp] theorem recordError_txf (e : Err) (s : State) : (recordError e s).txf = s.txf := rfl
@[simp] theorem recordError_res (e : Err) (s : State) : (recordError e s).res = s.res := rfl
@[simp] theorem recordError_clken (e : Err) (s : State) : (recordError e s).clken = s.clken := rfl
@[simp] theorem recordError_tcfg (e : Err) (s : State) : (recordError e s).tcfg = s.tcfg := rfl
@[simp] theorem recordError_ce (e : Err) (s : State) : (recordError e s).ce = s.ce := rfl
@[simp] theorem recordError_rs (e : Err) (s : State) : (recordError e s).rs = s.rs := rfl
@[simp] theorem recordError_rst (e : Err) (s : State) : (recordError e s).rst = s.rst := rfl
@[simp] theorem recordError_trace (e : Err) (s : State) : (recordError e s).trace = s.trace ++ e.logEvents := rfl
@[simp] theorem recordError_todo (e : Err) (s : State) : (recordError e s).todo = s.todo := rfl
@[simp] theorem recordError_txt (e : Err) (s : State) : (recordError e s).txt = s.txt := rfl
@[simp] theorem recordError_port (e : Err) (s : State) : (recordError e s).port = s.port := rfl
@[simp] theorem recordError_inputs (e : Err) (s : State) : (recordError e s).inputs = s.inputs := rfl
@[simp] theorem recordError_stale (e : Err) (s : State) : (recordError e s).stale = s.stale := rfl
@[simp] theorem recordError_answers (e : Err) (s : State) : (recordError e s).answers = s.answers := rfl
@[simp] theorem recordError_fresh (e : Err) (s : State) : (recordError e s).fresh = s.fresh := rfl
@[simp] theorem recordError_dev0 (e : Err) (s : State) : (recordError e s).dev0 = s.dev0 := rfl

/-! ### Closed forms of the updates that a case decides -/

theorem useAnswer_eq (s : State) :
    useAnswer s =
      { s with answers := s.answers.tail, fresh := if s.answers = [] then s.fresh + 1 else s.fresh } := by
  unfold useAnswer
  cases s.answers <;> simp

/-! ### `useAnswer` -/

@[simp] theorem useAnswer_op (s : State) : (useAnswer s).op = s.op := by rw [useAnswer_eq]
@[simp] theorem useAnswer_a (s : State) : (useAnswer s).a = s.a := by rw [useAnswer_eq]
@[simp] theorem useAnswer_b (s : State) : (useAnswer s).b = s.b := by rw [useAnswer_eq]
@[simp] theorem useAnswer_busy (s : State) : (useAnswer s).busy = s.busy := by rw [useAnswer_eq]
@[simp] theorem useAnswer_ph (s : State) : (useAnswer s).ph = s.ph := by rw [useAnswer_eq]
@[simp] theorem useAnswer_idx (s : State) : (useAnswer s).idx = s.idx := by rw [useAnswer_eq]
@[simp] theorem useAnswer_ch4 (s : State) : (useAnswer s).ch4 = s.ch4 := by rw [useAnswer_eq]
@[simp] theorem useAnswer_win (s : State) : (useAnswer s).win = s.win := by rw [useAnswer_eq]
@[simp] theorem useAnswer_len (s : State) : (useAnswer s).len = s.len := by rw [useAnswer_eq]
@[simp] theorem useAnswer_err (s : State) : (useAnswer s).err = s.err := by rw [useAnswer_eq]
@[simp] theorem useAnswer_warnLow (s : State) : (useAnswer s).warnLow = s.warnLow := by rw [useAnswer_eq]
@[simp] theorem useAnswer_warnHigh (s : State) : (useAnswer s).warnHigh = s.warnHigh := by rw [useAnswer_eq]
@[simp] theorem useAnswer_txf (s : State) : (useAnswer s).txf = s.txf := by rw [useAnswer_eq]
@[simp] theorem useAnswer_res (s : State) : (useAnswer s).res = s.res := by rw [useAnswer_eq]
@[simp] theorem useAnswer_clken (s : State) : (useAnswer s).clken = s.clken := by rw [useAnswer_eq]
@[simp] theorem useAnswer_tcfg (s : State) : (useAnswer s).tcfg = s.tcfg := by rw [useAnswer_eq]
@[simp] theorem useAnswer_ce (s : State) : (useAnswer s).ce = s.ce := by rw [useAnswer_eq]
@[simp] theorem useAnswer_rs (s : State) : (useAnswer s).rs = s.rs := by rw [useAnswer_eq]
@[simp] theorem useAnswer_rst (s : State) : (useAnswer s).rst = s.rst := by rw [useAnswer_eq]
@[simp] theorem useAnswer_trace (s : State) : (useAnswer s).trace = s.trace := by rw [useAnswer_eq]
@[simp] theorem useAnswer_todo (s : State) : (useAnswer s).todo = s.todo := by rw [useAnswer_eq]
@[simp] theorem useAnswer_txt (s : State) : (useAnswer s).txt = s.txt := by rw [useAnswer_eq]
@[simp] theorem useAnswer_port (s : State) : (useAnswer s).port = s.port := by rw [useAnswer_eq]
@[simp] theorem useAnswer_inputs (s : State) : (useAnswer s).inputs = s.inputs := by rw [useAnswer_eq]
@[simp] theorem useAnswer_stale (s : State) : (useAnswer s).stale = s.stale := by rw [useAnswer_eq]
@[simp] theorem useAnswer_dev0 (s : State) : (useAnswer s).dev0 = s.dev0 := by rw [useAnswer_eq]

/-! ### The other closed forms -/

theorem noteStatus_eq (st : Status) (s : State) :
    noteStatus st s =
      { s with
        txf := s.txf || st = .fail
        trace := s.trace ++ (match st with | .ok => [] | .fail => [.log .eTxFailed]) } := by
  cases st <;> simp [noteStatus, emit]

theorem noteWarning_eq (w : Warn) (s : State) :
    noteWarning w s =
      { s with
        warnLow := s.warnLow || w = .low
        warnHigh := s.warnHigh || w = .high
        trace := s.trace ++ w.logEvents } := by
  cases w <;> simp [noteWarning, emit, Warn.logEvents]

end Sys2Proof.Machine
end

