-- ==== Sys2Proof/Laws/Ops.lean ====
section
/-! SUPPORT. What each shared operation can do, said once: transmits, windows, running a list of
actions, and which runs can break. -/

namespace Sys2Proof.Machine

/-! ### Answers -/

theorem afterAnswers_eq (n : Nat) (s : State) :
    afterAnswers n s =
      { s with answers := (afterAnswers n s).answers, fresh := (afterAnswers n s).fresh } := by
  induction n generalizing s with
  | zero => rfl
  | succ n ih =>
    rw [show afterAnswers (n + 1) s = afterAnswers n (useAnswer s) from rfl, ih (useAnswer s), useAnswer_eq]

@[simp] theorem afterAnswers_op (n : Nat) (s : State) : (afterAnswers n s).op = s.op := by
  rw [afterAnswers_eq]
@[simp] theorem afterAnswers_a (n : Nat) (s : State) : (afterAnswers n s).a = s.a := by
  rw [afterAnswers_eq]
@[simp] theorem afterAnswers_b (n : Nat) (s : State) : (afterAnswers n s).b = s.b := by
  rw [afterAnswers_eq]
@[simp] theorem afterAnswers_busy (n : Nat) (s : State) : (afterAnswers n s).busy = s.busy := by
  rw [afterAnswers_eq]
@[simp] theorem afterAnswers_ph (n : Nat) (s : State) : (afterAnswers n s).ph = s.ph := by
  rw [afterAnswers_eq]
@[simp] theorem afterAnswers_idx (n : Nat) (s : State) : (afterAnswers n s).idx = s.idx := by
  rw [afterAnswers_eq]
@[simp] theorem afterAnswers_ch4 (n : Nat) (s : State) : (afterAnswers n s).ch4 = s.ch4 := by
  rw [afterAnswers_eq]
@[simp] theorem afterAnswers_win (n : Nat) (s : State) : (afterAnswers n s).win = s.win := by
  rw [afterAnswers_eq]
@[simp] theorem afterAnswers_len (n : Nat) (s : State) : (afterAnswers n s).len = s.len := by
  rw [afterAnswers_eq]
@[simp] theorem afterAnswers_err (n : Nat) (s : State) : (afterAnswers n s).err = s.err := by
  rw [afterAnswers_eq]
@[simp] theorem afterAnswers_warnLow (n : Nat) (s : State) : (afterAnswers n s).warnLow = s.warnLow := by
  rw [afterAnswers_eq]
@[simp] theorem afterAnswers_warnHigh (n : Nat) (s : State) : (afterAnswers n s).warnHigh = s.warnHigh := by
  rw [afterAnswers_eq]
@[simp] theorem afterAnswers_txf (n : Nat) (s : State) : (afterAnswers n s).txf = s.txf := by
  rw [afterAnswers_eq]
@[simp] theorem afterAnswers_res (n : Nat) (s : State) : (afterAnswers n s).res = s.res := by
  rw [afterAnswers_eq]
@[simp] theorem afterAnswers_clken (n : Nat) (s : State) : (afterAnswers n s).clken = s.clken := by
  rw [afterAnswers_eq]
@[simp] theorem afterAnswers_tcfg (n : Nat) (s : State) : (afterAnswers n s).tcfg = s.tcfg := by
  rw [afterAnswers_eq]
@[simp] theorem afterAnswers_ce (n : Nat) (s : State) : (afterAnswers n s).ce = s.ce := by
  rw [afterAnswers_eq]
@[simp] theorem afterAnswers_rs (n : Nat) (s : State) : (afterAnswers n s).rs = s.rs := by
  rw [afterAnswers_eq]
@[simp] theorem afterAnswers_rst (n : Nat) (s : State) : (afterAnswers n s).rst = s.rst := by
  rw [afterAnswers_eq]
@[simp] theorem afterAnswers_trace (n : Nat) (s : State) : (afterAnswers n s).trace = s.trace := by
  rw [afterAnswers_eq]
@[simp] theorem afterAnswers_todo (n : Nat) (s : State) : (afterAnswers n s).todo = s.todo := by
  rw [afterAnswers_eq]
@[simp] theorem afterAnswers_txt (n : Nat) (s : State) : (afterAnswers n s).txt = s.txt := by
  rw [afterAnswers_eq]
@[simp] theorem afterAnswers_port (n : Nat) (s : State) : (afterAnswers n s).port = s.port := by
  rw [afterAnswers_eq]
@[simp] theorem afterAnswers_inputs (n : Nat) (s : State) : (afterAnswers n s).inputs = s.inputs := by
  rw [afterAnswers_eq]
@[simp] theorem afterAnswers_stale (n : Nat) (s : State) : (afterAnswers n s).stale = s.stale := by
  rw [afterAnswers_eq]
@[simp] theorem afterAnswers_dev0 (n : Nat) (s : State) : (afterAnswers n s).dev0 = s.dev0 := by
  rw [afterAnswers_eq]

/-- Two states that agree on the answers to come have the same answers ahead. -/
theorem nextAnswer_congr (p : Params) {s t : State} (ha : t.answers = s.answers) (hf : t.fresh = s.fresh) :
    nextAnswer p t = nextAnswer p s := by
  simp [nextAnswer, ha, hf]

theorem answersAhead_congr (p : Params) (n : Nat) {s t : State} (ha : t.answers = s.answers)
    (hf : t.fresh = s.fresh) : answersAhead p n t = answersAhead p n s := by
  induction n generalizing s t with
  | zero => rfl
  | succ n ih =>
    simp only [answersAhead, nextAnswer_congr p ha hf]
    congr 1
    exact ih (by simp [useAnswer_eq, ha]) (by simp [useAnswer_eq, ha, hf])

theorem afterAnswers_answers_congr (n : Nat) {s t : State} (ha : t.answers = s.answers)
    (hf : t.fresh = s.fresh) :
    (afterAnswers n t).answers = (afterAnswers n s).answers ∧
      (afterAnswers n t).fresh = (afterAnswers n s).fresh := by
  induction n generalizing s t with
  | zero => exact ⟨ha, hf⟩
  | succ n ih => exact ih (by simp [useAnswer_eq, ha]) (by simp [useAnswer_eq, ha, hf])

@[simp] theorem answersAhead_length (p : Params) (n : Nat) (s : State) : (answersAhead p n s).length = n := by
  induction n generalizing s with
  | zero => rfl
  | succ n ih => simp [answersAhead, ih]

theorem answersAhead_add (p : Params) (m n : Nat) (s : State) :
    answersAhead p (m + n) s = answersAhead p m s ++ answersAhead p n (afterAnswers m s) := by
  induction m generalizing s with
  | zero => simp [answersAhead, afterAnswers]
  | succ m ih =>
    rw [show m + 1 + n = (m + n) + 1 by omega]
    simp [answersAhead, afterAnswers, ih]

theorem afterAnswers_add (m n : Nat) (s : State) : afterAnswers (m + n) s = afterAnswers n (afterAnswers m s) := by
  induction m generalizing s with
  | zero => simp [afterAnswers]
  | succ m ih =>
    rw [show m + 1 + n = (m + n) + 1 by omega]
    simp [afterAnswers, ih]

/-- Answers the environment has fixed come first. -/
theorem answersAhead_of_fixed (p : Params) (sts rest : List Status) (s : State) (h : s.answers = sts ++ rest) :
    answersAhead p sts.length s = sts := by
  induction sts generalizing s with
  | nil => rfl
  | cons st sts ih =>
    simp only [List.length_cons, answersAhead]
    congr 1
    · simp [nextAnswer, h]
    · exact ih (useAnswer s) (by simp [useAnswer_eq, h])

/-! ### Transmits -/

/-- All that one transmit on the display's channel does (R143, R148). -/
theorem transmitDisplay_eq (p : Params) (b : Byte) (s : State) :
    transmitDisplay p b s =
      { useAnswer s with
        txf := s.txf || nextAnswer p s = .fail
        trace := s.trace ++ .tx p.dispCh b (nextAnswer p s) :: statusEvents (nextAnswer p s) } := by
  simp only [transmitDisplay, transmit, emit, useAnswer_eq]
  generalize nextAnswer p s = st
  cases st <;> simp [noteStatus, statusEvents, emit]

@[simp] theorem transmitDisplay_op (p : Params) (b : Byte) (s : State) :
    (transmitDisplay p b s).op = s.op := by
  simp [transmitDisplay_eq]
@[simp] theorem transmitDisplay_a (p : Params) (b : Byte) (s : State) :
    (transmitDisplay p b s).a = s.a := by
  simp [transmitDisplay_eq]
@[simp] theorem transmitDisplay_b (p : Params) (b : Byte) (s : State) :
    (transmitDisplay p b s).b = s.b := by
  simp [transmitDisplay_eq]
@[simp] theorem transmitDisplay_busy (p : Params) (b : Byte) (s : State) :
    (transmitDisplay p b s).busy = s.busy := by
  simp [transmitDisplay_eq]
@[simp] theorem transmitDisplay_ph (p : Params) (b : Byte) (s : State) :
    (transmitDisplay p b s).ph = s.ph := by
  simp [transmitDisplay_eq]
@[simp] theorem transmitDisplay_idx (p : Params) (b : Byte) (s : State) :
    (transmitDisplay p b s).idx = s.idx := by
  simp [transmitDisplay_eq]
@[simp] theorem transmitDisplay_ch4 (p : Params) (b : Byte) (s : State) :
    (transmitDisplay p b s).ch4 = s.ch4 := by
  simp [transmitDisplay_eq]
@[simp] theorem transmitDisplay_win (p : Params) (b : Byte) (s : State) :
    (transmitDisplay p b s).win = s.win := by
  simp [transmitDisplay_eq]
@[simp] theorem transmitDisplay_len (p : Params) (b : Byte) (s : State) :
    (transmitDisplay p b s).len = s.len := by
  simp [transmitDisplay_eq]
@[simp] theorem transmitDisplay_err (p : Params) (b : Byte) (s : State) :
    (transmitDisplay p b s).err = s.err := by
  simp [transmitDisplay_eq]
@[simp] theorem transmitDisplay_warnLow (p : Params) (b : Byte) (s : State) :
    (transmitDisplay p b s).warnLow = s.warnLow := by
  simp [transmitDisplay_eq]
@[simp] theorem transmitDisplay_warnHigh (p : Params) (b : Byte) (s : State) :
    (transmitDisplay p b s).warnHigh = s.warnHigh := by
  simp [transmitDisplay_eq]
@[simp] theorem transmitDisplay_res (p : Params) (b : Byte) (s : State) :
    (transmitDisplay p b s).res = s.res := by
  simp [transmitDisplay_eq]
@[simp] theorem transmitDisplay_clken (p : Params) (b : Byte) (s : State) :
    (transmitDisplay p b s).clken = s.clken := by
  simp [transmitDisplay_eq]
@[simp] theorem transmitDisplay_tcfg (p : Params) (b : Byte) (s : State) :
    (transmitDisplay p b s).tcfg = s.tcfg := by
  simp [transmitDisplay_eq]
@[simp] theorem transmitDisplay_ce (p : Params) (b : Byte) (s : State) :
    (transmitDisplay p b s).ce = s.ce := by
  simp [transmitDisplay_eq]
@[simp] theorem transmitDisplay_rs (p : Params) (b : Byte) (s : State) :
    (transmitDisplay p b s).rs = s.rs := by
  simp [transmitDisplay_eq]
@[simp] theorem transmitDisplay_rst (p : Params) (b : Byte) (s : State) :
    (transmitDisplay p b s).rst = s.rst := by
  simp [transmitDisplay_eq]
@[simp] theorem transmitDisplay_todo (p : Params) (b : Byte) (s : State) :
    (transmitDisplay p b s).todo = s.todo := by
  simp [transmitDisplay_eq]
@[simp] theorem transmitDisplay_txt (p : Params) (b : Byte) (s : State) :
    (transmitDisplay p b s).txt = s.txt := by
  simp [transmitDisplay_eq]
@[simp] theorem transmitDisplay_port (p : Params) (b : Byte) (s : State) :
    (transmitDisplay p b s).port = s.port := by
  simp [transmitDisplay_eq]
@[simp] theorem transmitDisplay_inputs (p : Params) (b : Byte) (s : State) :
    (transmitDisplay p b s).inputs = s.inputs := by
  simp [transmitDisplay_eq]
@[simp] theorem transmitDisplay_stale (p : Params) (b : Byte) (s : State) :
    (transmitDisplay p b s).stale = s.stale := by
  simp [transmitDisplay_eq]
@[simp] theorem transmitDisplay_dev0 (p : Params) (b : Byte) (s : State) :
    (transmitDisplay p b s).dev0 = s.dev0 := by
  simp [transmitDisplay_eq]

/-! ### Running actions -/

theorem inputDue_of_none {s : State} (h : s.inputs = []) : inputDue s = false := by simp [inputDue, h]

theorem passTime_of_none {s : State} (h : s.inputs = []) : passTime s = s := by simp [passTime, h]

@[simp] theorem runScript_nil (p : Params) (s : State) : runScript p [] s = (endOperation p s, none) := rfl

/-- One action that goes on, with no input of the host pending. -/
theorem runScript_cons_goesOn {p : Params} {a : Action} {rest : List Action} {s t : State} (h : s.inputs = [])
    (ha : doAction p a s = .goesOn t) : runScript p (a :: rest) s = runScript p rest t := by
  simp [runScript, inputDue_of_none h, passTime_of_none h, ha]

/-- One action that raises an error. -/
theorem runScript_cons_raises {p : Params} {a : Action} {rest : List Action} {s t : State} {e : Err}
    (h : s.inputs = []) (ha : doAction p a s = .raises e t) :
    runScript p (a :: rest) s = (raise p e t, none) := by
  simp [runScript, inputDue_of_none h, passTime_of_none h, ha]

/-- One action that breaks the run. -/
theorem runScript_cons_breaks {p : Params} {a : Action} {rest : List Action} {s t : State} {f : Fault}
    (h : s.inputs = []) (ha : doAction p a s = .breaks f t) :
    runScript p (a :: rest) s = (t, some f) := by
  simp [runScript, inputDue_of_none h, passTime_of_none h, ha]

/-- An action other than a frame's load never breaks a run. -/
theorem doAction_breaks {p : Params} {a : Action} {s t : State} {f : Fault} (h : doAction p a s = .breaks f t) :
    ∃ addr n, a = .loadText addr n := by
  cases a <;> simp [doAction] at h
  case checkPolarity pp => split at h <;> simp at h
  case tinit ch cfg =>
    unfold transportInit at h
    split at h <;> simp at h
  case loadText addr n => exact ⟨addr, n, rfl⟩

/-- A list of actions with no frame's load never breaks, whatever the host does (so that only `SCROLL` can
fault). -/
theorem runScript_never_breaks (p : Params) (script : List Action) (s : State)
    (h : ∀ addr n, Action.loadText addr n ∉ script) : (runScript p script s).2 = none := by
  induction script generalizing s with
  | nil => rfl
  | cons a rest ih =>
    unfold runScript
    split
    · rfl
    · split
      · exact ih _ fun addr n hm => h addr n (by simp [hm])
      · rfl
      · rename_i f t hd
        obtain ⟨addr, n, rfl⟩ := doAction_breaks hd
        exact absurd (by simp) (h addr n)

/-! ### Windows -/

/-- The payload's transmits (R143), with no input of the host pending. -/
theorem runScript_sendFrom (p : Params) (data : List Datum) (i : Nat) (rest : List Action) (s : State)
    (h : s.inputs = []) :
    runScript p (sendFrom i data ++ rest) s =
      runScript p rest
        { afterAnswers data.length s with
          idx := if data = [] then s.idx else BitVec.ofNat 5 (i + data.length)
          txf := s.txf || anyFail (answersAhead p data.length s)
          trace := s.trace ++
            txEvents p (data.map (datumByte p · s)) (answersAhead p data.length s) } := by
  induction data generalizing i s with
  | nil => simp [sendFrom, afterAnswers, answersAhead, txEvents, anyFail]
  | cons d ds ih =>
    have hgo : doAction p (.send i d) s =
        .goesOn { transmitDisplay p (datumByte p d s) s with idx := BitVec.ofNat 5 (i + 1) } := rfl
    simp only [sendFrom, List.cons_append]
    rw [runScript_cons_goesOn h hgo, ih _ _ (by simp [transmitDisplay_eq, useAnswer_eq, h])]
    have hu := transmitDisplay_eq p (datumByte p d s) s
    have hans : (transmitDisplay p (datumByte p d s) s).answers = (useAnswer s).answers := by rw [hu]
    have hfr : (transmitDisplay p (datumByte p d s) s).fresh = (useAnswer s).fresh := by rw [hu]
    have hdat : ∀ x, datumByte p x { transmitDisplay p (datumByte p d s) s with idx := BitVec.ofNat 5 (i + 1) }
        = datumByte p x s := by
      intro x
      cases x <;> simp only [datumByte, transmitDisplay_ch4]
    congr 1
    simp only [hdat]
    rw [afterAnswers_eq]
    have hc := afterAnswers_answers_congr ds.length
      (s := useAnswer s) (t := { transmitDisplay p (datumByte p d s) s with idx := BitVec.ofNat 5 (i + 1) }) hans hfr
    have hcc := answersAhead_congr p ds.length
      (s := useAnswer s) (t := { transmitDisplay p (datumByte p d s) s with idx := BitVec.ofNat 5 (i + 1) }) hans hfr
    rw [hc.1, hc.2, hcc]
    rw [show afterAnswers (d :: ds).length s = afterAnswers ds.length (useAnswer s) from rfl,
      afterAnswers_eq ds.length (useAnswer s)]
    simp only [hu, useAnswer_eq, List.length_cons, answersAhead, List.map_cons, txEvents]
    have hidx : (if ds = [] then BitVec.ofNat 5 (i + 1) else BitVec.ofNat 5 (i + 1 + ds.length))
        = BitVec.ofNat 5 (i + (ds.length + 1)) := by
      split
      · rename_i hd
        simp [hd]
      · rw [show i + 1 + ds.length = i + (ds.length + 1) by omega]
    simp [hidx, anyFail, Bool.or_assoc]

theorem datumByte_congr (p : Params) (d : Datum) {s t : State} (h : t.ch4 = s.ch4) :
    datumByte p d t = datumByte p d s := by
  cases d <;> simp [datumByte, h]

/-- All that a window does (R140, R154), with no input of the host pending. -/
theorem runScript_window (p : Params) (sp : Space) (data : List Datum) (rest : List Action) (s : State)
    (h : s.inputs = []) :
    runScript p (window p sp data ++ rest) s =
      runScript p rest (windowDone p sp (data.map (datumByte p · s)) s) := by
  -- steps 1 to 3: the space selected, the window opened
  obtain ⟨s1, hs1⟩ : ∃ s1 : State, s1 = { s with
    ph := .writing, rs := spaceLevel p sp, ce := 0, idx := 0,
    trace := s.trace ++ [.pin .rs (spaceLevel p sp), .delayUs p.tSettleUs, .pin .ce 0] } := ⟨_, rfl⟩
  have h1 : s1.inputs = [] := by simpa [hs1] using h
  have hopen : runScript p (window p sp data ++ rest) s =
      runScript p (sendFrom 0 data ++ ([.delayUs p.tPostUs, .closeWindow, .dummy] ++ rest)) s1 := by
    simp only [window, List.cons_append, List.nil_append, List.append_assoc]
    rw [runScript_cons_goesOn h rfl, runScript_cons_goesOn (by simpa [drivePin] using h) rfl,
      runScript_cons_goesOn (by simpa [drivePin] using h) rfl,
      runScript_cons_goesOn (by simpa [drivePin] using h) rfl]
    congr 1
    simp [hs1, drivePin, setPhase, emit]
  rw [hopen, runScript_sendFrom p data 0 _ s1 h1]
  -- the payload is that of the starting state, and so are the answers
  have hd : data.map (datumByte p · s1) = data.map (datumByte p · s) :=
    List.map_congr_left fun d _ => datumByte_congr p d (by rw [hs1])
  have ha := answersAhead_congr p data.length (s := s) (t := s1) (by rw [hs1]) (by rw [hs1])
  have hs := afterAnswers_answers_congr data.length (s := s) (t := s1) (by rw [hs1]) (by rw [hs1])
  -- steps 4 to 6
  simp only [List.cons_append, List.nil_append]
  rw [runScript_cons_goesOn (by simpa using h1) rfl,
    runScript_cons_goesOn (by simpa [drivePin] using h1) rfl,
    runScript_cons_goesOn (by simpa [drivePin] using h1) rfl]
  congr 1
  have hsum := answersAhead_add p data.length 1 s
  have hone : answersAhead p 1 (afterAnswers data.length s) = [nextAnswer p (afterAnswers data.length s)] := rfl
  rw [hone] at hsum
  have haft : afterAnswers (data.length + 1) s = useAnswer (afterAnswers data.length s) :=
    afterAnswers_add data.length 1 s
  have hn : ∀ u : State, u.answers = (afterAnswers data.length s1).answers →
      u.fresh = (afterAnswers data.length s1).fresh →
      nextAnswer p u = nextAnswer p (afterAnswers data.length s) := fun u h1 h2 =>
    nextAnswer_congr p (h1.trans hs.1) (h2.trans hs.2)
  have hi : (if data = [] then s1.idx else BitVec.ofNat 5 (0 + data.length)) = BitVec.ofNat 5 data.length := by
    by_cases hnil : data = [] <;> simp [hnil, hs1]
  simp only [hi, ha, hd]
  clear hi ha hd hopen
  apply State.ext <;>
    simp only [windowDone, windowEvents, drivePin, transmitDisplay_eq, setPhase, emit, List.length_map, hsum, haft,
      useAnswer_eq, hs, hn]
  all_goals simp [hs1, anyFail, txEvents, Bool.or_assoc]

end Sys2Proof.Machine
end

