-- ==== Sys2Proof/Laws/Frames.lean ====
section
/-! SUPPORT. The one induction over the actions of an operation, and what no action, no operation, or only
some of them can change; these hold whatever the host's inputs are. -/

namespace Sys2Proof.Machine

/-- A result's state, however the action ended. -/
def ActionResult.Reaches : ActionResult → State → Prop
  | .goesOn t, u => u = t
  | .raises _ t, u => u = t
  | .breaks _ t, u => u = t

/-- A relation that every action of a script keeps, and that holds across the ends of a run, holds across
the run. -/
theorem runScript_induction {p : Params} (R : State → State → Prop)
    (htrans : ∀ {s t u}, R s t → R t u → R s u) (hpass : ∀ s, R s (passTime s))
    (hpause : ∀ s todo, R s { s with todo := todo }) (hend : ∀ s, R s (endOperation p s))
    (hraise : ∀ e s, R s (raise p e s)) (script : List Action)
    (hact : ∀ a ∈ script, ∀ s t, (doAction p a s).Reaches t → R s t) (s : State) :
    R s (runScript p script s).1 := by
  induction script generalizing s with
  | nil => exact hend s
  | cons a rest ih =>
    have ih := ih fun a ha => hact a (List.mem_cons_of_mem _ ha)
    have ha := hact a List.mem_cons_self (passTime s)
    unfold runScript
    split
    · exact hpause s _
    · split
      · rename_i t hd
        exact htrans (hpass s) (htrans (ha t (by simp [hd, ActionResult.Reaches])) (ih t))
      · rename_i e t hd
        exact htrans (hpass s) (htrans (ha t (by simp [hd, ActionResult.Reaches])) (hraise e t))
      · rename_i f t hd
        exact htrans (hpass s) (ha t (by simp [hd, ActionResult.Reaches]))

/-! ### Runs that differ only in what no action reads -/

/-- A change of the state carried through a result. -/
def ActionResult.map (f : State → State) : ActionResult → ActionResult
  | .goesOn t => .goesOn (f t)
  | .raises e t => .raises e (f t)
  | .breaks flt t => .breaks flt (f t)

/-- A change of the state that commutes with every action of a script, and with the ends of a run, commutes with
the run. -/
theorem runScript_commutes {p : Params} (f : State → State) (hdue : ∀ s, inputDue (f s) = inputDue s)
    (hpass : ∀ s, passTime (f s) = f (passTime s))
    (hpause : ∀ s todo, { f s with todo := todo } = f { s with todo := todo })
    (hend : ∀ s, endOperation p (f s) = f (endOperation p s)) (hraise : ∀ e s, raise p e (f s) = f (raise p e s))
    (script : List Action) (hact : ∀ a ∈ script, ∀ s, doAction p a (f s) = (doAction p a s).map f) (s : State) :
    runScript p script (f s) = (f (runScript p script s).1, (runScript p script s).2) := by
  induction script generalizing s with
  | nil => simp [hend]
  | cons a rest ih =>
    have ih := ih fun b hb => hact b (List.mem_cons_of_mem _ hb)
    have ha := hact a List.mem_cons_self (passTime s)
    unfold runScript
    rw [hdue, hpass, ha]
    split
    · simp [hpause]
    · cases doAction p a (passTime s) with
      | goesOn t => simpa [ActionResult.map] using ih t
      | raises e t => simp [ActionResult.map, hraise]
      | breaks flt t => simp [ActionResult.map]

/-- The latches `A` and `B` at other values. -/
def withOperands (a b : Word) (s : State) : State := { s with a := a, b := b }

@[simp] theorem nextAnswer_withOperands (p : Params) (a b : Word) (s : State) :
    nextAnswer p (withOperands a b s) = nextAnswer p s := nextAnswer_congr p rfl rfl

theorem readText_withOperands (p : Params) (addr : Nat) (a b : Word) (s : State) :
    readText p addr (withOperands a b s) =
      ((readText p addr s).1, withOperands a b (readText p addr s).2) := by
  have hh : heldBytes (withOperands a b s) addr = heldBytes s addr := rfl
  unfold readText
  rw [hh]
  split <;> rfl

theorem frameChar_withOperands (p : Params) (addr n i : Nat) (a b : Word) (s : State) :
    frameChar p addr n i (withOperands a b s) =
      ((frameChar p addr n i s).1, withOperands a b (frameChar p addr n i s).2) := by
  unfold frameChar
  split
  · exact readText_withOperands p _ a b s
  · rfl

/-- No action reads the latches (the operands reach an operation decoded). -/
theorem doAction_withOperands (p : Params) (act : Action) (a b : Word) (s : State) :
    doAction p act (withOperands a b s) = (doAction p act s).map (withOperands a b) := by
  cases act <;> simp only [doAction]
  case gate ch =>
    have hr : (withOperands a b s).clken = s.clken := rfl
    simp only [enableGate, hr]
    split <;> rfl
  case warn w => cases w <;> rfl
  case checkPolarity pp => split <;> rfl
  case tinit ch cfg =>
    simp only [transportInit, nextAnswer_withOperands]
    cases nextAnswer p s <;>
      simp [ActionResult.map, commitCfg, spoilCfg, emit, useAnswer_eq, withOperands]
  case send i d =>
    simp [ActionResult.map, transmitDisplay_eq, useAnswer_eq, withOperands,
      nextAnswer_congr p (s := s) (t := { s with a := a, b := b }) rfl rfl]
    cases d <;> rfl
  case dummy =>
    simp [ActionResult.map, transmitDisplay_eq, useAnswer_eq, withOperands, setPhase,
      nextAnswer_congr p (s := s) (t := { s with a := a, b := b }) rfl rfl]
  case loadText addr n =>
    simp only [loadFrame, readFrame, frameChar_withOperands]
    split <;> rfl
  all_goals rfl

/-- Two runs whose latches differ end alike but for the latches. -/
theorem runScript_withOperands (p : Params) (script : List Action) (a b : Word) (s : State) :
    runScript p script (withOperands a b s) =
      (withOperands a b (runScript p script s).1, (runScript p script s).2) :=
  runScript_commutes (withOperands a b) (fun _ => rfl)
    (fun s => by unfold passTime; rw [show (withOperands a b s).inputs = s.inputs from rfl]; split <;> rfl)
    (fun _ _ => rfl) (fun _ => rfl) (fun _ _ => rfl) script (fun act _ => doAction_withOperands p act a b) s

/-! ### What no action changes -/

/-- The fields that no action writes. -/
structure ActionFrame (s t : State) : Prop where
  op : t.op = s.op
  a : t.a = s.a
  b : t.b = s.b
  txt : t.txt = s.txt
  port : t.port = s.port
  dev0 : t.dev0 = s.dev0
  trace : ∃ es, t.trace = s.trace ++ es

theorem ActionFrame.refl (s : State) : ActionFrame s s := ⟨rfl, rfl, rfl, rfl, rfl, rfl, [], by simp⟩

theorem ActionFrame.trans {s t u : State} (h : ActionFrame s t) (g : ActionFrame t u) : ActionFrame s u := by
  obtain ⟨es, he⟩ := h.trace
  obtain ⟨fs, hf⟩ := g.trace
  exact ⟨g.op.trans h.op, g.a.trans h.a, g.b.trans h.b, g.txt.trans h.txt, g.port.trans h.port,
    g.dev0.trans h.dev0, es ++ fs, by rw [hf, he, List.append_assoc]⟩

theorem passTime_eq (s : State) : passTime s = { s with inputs := (passTime s).inputs } := by
  unfold passTime
  split <;> rfl

theorem passTime_frame (s : State) : ActionFrame s (passTime s) := by
  rw [passTime_eq]
  exact ⟨rfl, rfl, rfl, rfl, rfl, rfl, [], by simp⟩

theorem endOperation_frame (p : Params) (s : State) : ActionFrame s (endOperation p s) :=
  ⟨rfl, rfl, rfl, rfl, rfl, rfl, [], by simp⟩

theorem raise_frame (p : Params) (e : Err) (s : State) : ActionFrame s (raise p e s) :=
  ⟨rfl, rfl, rfl, rfl, rfl, rfl, e.logEvents, by simp [raise]⟩

/-- Reading a byte of `TXT` changes at most the number of free values drawn. -/
theorem readText_eq (p : Params) (a : Nat) (s : State) :
    (readText p a s).2 = { s with fresh := (readText p a s).2.fresh } := by
  unfold readText
  split <;> rfl

theorem frameChar_eq (p : Params) (a n i : Nat) (s : State) :
    (frameChar p a n i s).2 = { s with fresh := (frameChar p a n i s).2.fresh } := by
  unfold frameChar
  split
  · exact readText_eq p _ s
  · rfl

/-- Reading a frame changes at most the number of free values drawn. -/
theorem readFrame_eq (p : Params) (a n : Nat) (s : State) :
    (readFrame p a n s).2 = { s with fresh := (readFrame p a n s).2.fresh } := by
  simp only [readFrame]
  rw [frameChar_eq p a n 3, frameChar_eq p a n 2, frameChar_eq p a n 1, frameChar_eq p a n 0]

/-- A frame's load: it writes `CH4`, or nothing, and draws. -/
theorem loadFrame_reaches {p : Params} {a n : Nat} {s t : State} (h : (loadFrame p a n s).Reaches t) :
    t = { s with ch4 := t.ch4, fresh := t.fresh } := by
  simp only [loadFrame] at h
  split at h <;> simp only [ActionResult.Reaches] at h <;> subst h <;> rw [readFrame_eq]

theorem doAction_frame {p : Params} {a : Action} {s t : State} (h : (doAction p a s).Reaches t) :
    ActionFrame s t := by
  cases a <;> simp only [doAction] at h
  case loadText addr n =>
    rw [loadFrame_reaches h]
    exact ⟨rfl, rfl, rfl, rfl, rfl, rfl, [], by simp⟩
  case checkPolarity pp =>
    split at h <;> simp only [ActionResult.Reaches] at h <;> subst h <;> exact .refl _
  case tinit ch cfg =>
    unfold transportInit at h
    split at h <;> simp only [ActionResult.Reaches] at h <;> subst h
    all_goals exact ⟨by simp [commitCfg, spoilCfg, useAnswer_eq], by simp [commitCfg, spoilCfg, useAnswer_eq],
      by simp [commitCfg, spoilCfg, useAnswer_eq], by simp [commitCfg, spoilCfg, useAnswer_eq],
      by simp [commitCfg, spoilCfg, useAnswer_eq], by simp [commitCfg, spoilCfg, useAnswer_eq], _,
      by simp [commitCfg, spoilCfg, useAnswer_eq]; rfl⟩
  case gate ch =>
    simp only [ActionResult.Reaches] at h
    subst h
    unfold enableGate
    split
    · exact ⟨rfl, rfl, rfl, rfl, rfl, rfl, _, rfl⟩
    · exact .refl _
  case warn w =>
    simp only [ActionResult.Reaches] at h
    subst h
    cases w
    · exact .refl _
    · exact ⟨rfl, rfl, rfl, rfl, rfl, rfl, _, rfl⟩
    · exact ⟨rfl, rfl, rfl, rfl, rfl, rfl, _, rfl⟩
  case send i d =>
    simp only [ActionResult.Reaches] at h
    subst h
    exact ⟨by simp, by simp, by simp, by simp, by simp, by simp, _, by simp [transmitDisplay_eq]; rfl⟩
  case dummy =>
    simp only [ActionResult.Reaches] at h
    subst h
    exact ⟨by simp [setPhase], by simp [setPhase], by simp [setPhase], by simp [setPhase], by simp [setPhase],
      by simp [setPhase], _, by simp [setPhase, transmitDisplay_eq]; rfl⟩
  all_goals
    simp only [ActionResult.Reaches] at h
    subst h
    first
      | exact ⟨rfl, rfl, rfl, rfl, rfl, rfl, _, rfl⟩
      | exact ⟨rfl, rfl, rfl, rfl, rfl, rfl, [], by simp [setPhase]⟩

/-- What no run of actions changes. -/
theorem runScript_frame (p : Params) (script : List Action) (s : State) :
    ActionFrame s (runScript p script s).1 :=
  runScript_induction ActionFrame .trans passTime_frame
    (fun _ _ => ⟨rfl, rfl, rfl, rfl, rfl, rfl, [], by simp⟩) (endOperation_frame p) (raise_frame p) script
    (fun _ _ _ _ h => doAction_frame h) s

theorem perform_frame (p : Params) (plan : Except Err (List Action)) (s : State) :
    ActionFrame s (perform p plan s).1 := by
  cases plan with
  | error e => exact raise_frame p e s
  | ok script => exact runScript_frame p script s

/-! ### The transport registers and the result register -/

/-- An action that writes a transport register. -/
def Action.writesTransport : Action → Bool
  | .gate _ => true
  | .tinit _ _ => true
  | _ => false

theorem doAction_transport {p : Params} {a : Action} {s t : State} (ha : a.writesTransport = false)
    (h : (doAction p a s).Reaches t) : t.clken = s.clken ∧ t.tcfg = s.tcfg := by
  cases a <;> simp only [doAction, Action.writesTransport, Bool.true_eq_false] at h ha
  case loadText addr n =>
    rw [loadFrame_reaches h]
    exact ⟨rfl, rfl⟩
  case checkPolarity pp =>
    split at h <;> simp only [ActionResult.Reaches] at h <;> subst h <;> exact ⟨rfl, rfl⟩
  case warn w =>
    simp only [ActionResult.Reaches] at h
    subst h
    cases w <;> exact ⟨rfl, rfl⟩
  all_goals
    simp only [ActionResult.Reaches] at h
    subst h
    simp [setPhase, drivePin]

/-- A run with no gate and no transport init leaves the transport registers alone (R21). -/
theorem runScript_transport (p : Params) (script : List Action)
    (h : ∀ a ∈ script, a.writesTransport = false) (s : State) :
    (runScript p script s).1.clken = s.clken ∧ (runScript p script s).1.tcfg = s.tcfg :=
  runScript_induction (fun s t => t.clken = s.clken ∧ t.tcfg = s.tcfg)
    (fun h g => ⟨g.1.trans h.1, g.2.trans h.2⟩) (fun s => by rw [passTime_eq]; exact ⟨rfl, rfl⟩)
    (fun _ _ => ⟨rfl, rfl⟩) (fun _ => ⟨rfl, rfl⟩) (fun e s => by simp [raise]) script
    (fun a ha _ _ hd => doAction_transport (h a ha) hd) s

/-- An action that writes the result register. -/
def Action.writesResult : Action → Bool
  | .setRes _ => true
  | _ => false

theorem doAction_result {p : Params} {a : Action} {s t : State} (ha : a.writesResult = false)
    (h : (doAction p a s).Reaches t) : t.res = s.res := by
  cases a <;> simp only [doAction, Action.writesResult, Bool.true_eq_false] at h ha
  case loadText addr n =>
    rw [loadFrame_reaches h]
  case checkPolarity pp =>
    split at h <;> simp only [ActionResult.Reaches] at h <;> subst h <;> rfl
  case tinit ch cfg =>
    unfold transportInit at h
    split at h <;> simp only [ActionResult.Reaches] at h <;> subst h <;>
      simp [commitCfg, spoilCfg, useAnswer_eq]
  case gate ch =>
    simp only [ActionResult.Reaches] at h
    subst h
    unfold enableGate
    split <;> rfl
  case warn w =>
    simp only [ActionResult.Reaches] at h
    subst h
    cases w <;> rfl
  all_goals
    simp only [ActionResult.Reaches] at h
    subst h
    simp [setPhase, drivePin]

/-- A run without `SELDIV`'s last action leaves `RES` alone (R16). -/
theorem runScript_result (p : Params) (script : List Action) (h : ∀ a ∈ script, a.writesResult = false)
    (s : State) : (runScript p script s).1.res = s.res :=
  runScript_induction (fun s t => t.res = s.res) (fun h g => g.trans h)
    (fun s => by rw [passTime_eq]) (fun _ _ => rfl) (fun _ => rfl) (fun e s => by simp [raise]) script
    (fun a ha _ _ hd => doAction_result (h a ha) hd) s

/-! ### Which actions an operation consists of -/

theorem mem_sendFrom {data : List Datum} {i : Nat} {a : Action} (h : a ∈ sendFrom i data) :
    ∃ k d, a = .send k d := by
  induction data generalizing i with
  | nil => simp [sendFrom] at h
  | cons d ds ih =>
    rw [sendFrom, List.mem_cons] at h
    rcases h with rfl | h
    · exact ⟨i, d, rfl⟩
    · exact ih h

/-- The actions of a window. -/
theorem mem_window {p : Params} {sp : Space} {data : List Datum} {a : Action} (h : a ∈ window p sp data) :
    a = .selectSpace sp ∨ (∃ n, a = .delayUs n) ∨ a = .openWindow ∨ a = .startData ∨ (∃ k d, a = .send k d) ∨
      a = .closeWindow ∨ a = .dummy := by
  simp only [window, List.cons_append, List.nil_append, List.mem_cons, List.mem_append, List.not_mem_nil,
    or_false] at h
  rcases h with h | h | h | h | h | h | h | h
  · exact .inl h
  · exact .inr (.inl ⟨_, h⟩)
  · exact .inr (.inr (.inl h))
  · exact .inr (.inr (.inr (.inl h)))
  · exact .inr (.inr (.inr (.inr (.inl (mem_sendFrom h)))))
  · exact .inr (.inl ⟨_, h⟩)
  · exact .inr (.inr (.inr (.inr (.inr (.inl h)))))
  · exact .inr (.inr (.inr (.inr (.inr (.inr h)))))

/-- A window writes no transport register and no result, and reads no text. -/
theorem window_plain {p : Params} {sp : Space} {data : List Datum} {a : Action} (h : a ∈ window p sp data) :
    a.writesTransport = false ∧ a.writesResult = false ∧ ∀ addr n, a ≠ .loadText addr n := by
  rcases mem_window h with rfl | ⟨n, rfl⟩ | rfl | rfl | ⟨k, d, rfl⟩ | rfl | rfl <;>
    exact ⟨rfl, rfl, by simp⟩

/-- `SCROLL` writes no transport register and no result. -/
theorem scrollScript_plain {p : Params} {b len : Nat} {a : Action} (h : a ∈ scrollScript p b len) :
    a.writesTransport = false ∧ a.writesResult = false := by
  have hw : ∀ {x n}, a ∈ scrollFrame p x n → a.writesTransport = false ∧ a.writesResult = false := by
    intro x n hm
    rw [scrollFrame, List.mem_cons] at hm
    rcases hm with rfl | hm
    · exact ⟨rfl, rfl⟩
    · exact ⟨(window_plain hm).1, (window_plain hm).2.1⟩
  rw [scrollScript, List.mem_cons] at h
  rcases h with rfl | h
  · exact ⟨rfl, rfl⟩
  split at h
  · exact hw h
  · obtain ⟨w, -, h⟩ := List.mem_flatMap.1 h
    simp only [scrollStep, List.cons_append, List.mem_cons, List.mem_append] at h
    rcases h with rfl | h | h
    · exact ⟨rfl, rfl⟩
    · exact hw h
    · split at h
      · rw [List.mem_singleton] at h
        subst h
        exact ⟨rfl, rfl⟩
      · simp at h

/-! ### Operations -/

/-- The outcome of a run that does not break is its state. -/
theorem runOutcome_next {r : State × Option Fault} {t : State} :
    runOutcome r = .next t ↔ r.2 = none ∧ r.1 = t := by
  obtain ⟨u, f⟩ := r
  cases f <;> simp [runOutcome]

end Sys2Proof.Machine
end

