-- ==== Sys2Proof/Laws/Memory.lean ====
section
/-! SUPPORT. The laws of memory: a read after a write, and the canonical form that every write keeps. -/

namespace Sys2Proof.Machine

theorem Sparse.read_eq_unlisted {w : Nat} (m : Sparse w) (a : Nat) (h : ∀ e ∈ m, a < e.1) :
    Sparse.read m a = Sparse.unlisted w := by
  induction m with
  | nil => rfl
  | cons e m ih =>
    obtain ⟨k, v⟩ := e
    have hk : a < k := h (k, v) (by simp)
    simp [Sparse.read, show k ≠ a by omega, ih (fun e he => h e (by simp [he]))]

theorem Sparse.wf_cons {w : Nat} (k : Nat) (v : BitVec w) (m : Sparse w) :
    Sparse.wf ((k, v) :: m) = true ↔ v ≠ Sparse.unlisted w ∧ (∀ e ∈ m, k < e.1) ∧ Sparse.wf m = true := by
  simp [Sparse.wf, and_assoc]

/-- A write lists no address that was not there, but for its own. -/
theorem Sparse.mem_write {w : Nat} (m : Sparse w) (a : Nat) (v : BitVec w) (e : Nat × BitVec w)
    (he : e ∈ Sparse.write m a v) : e ∈ m ∨ e.1 = a := by
  induction m with
  | nil =>
    unfold Sparse.write at he
    split at he <;> simp_all
  | cons x m ih =>
    obtain ⟨k, y⟩ := x
    unfold Sparse.write at he
    split at he
    · split at he
      · exact .inl he
      · rcases List.mem_cons.1 he with rfl | h
        · exact .inr rfl
        · exact .inl h
    · split at he
      · split at he
        · exact .inl (by simp [he])
        · rcases List.mem_cons.1 he with rfl | h
          · exact .inr rfl
          · exact .inl (by simp [h])
      · rcases List.mem_cons.1 he with rfl | h
        · exact .inl (by simp)
        · rcases ih h with h | h
          · exact .inl (by simp [h])
          · exact .inr h

/-- Every write keeps the canonical form. -/
theorem Sparse.write_wf {w : Nat} (m : Sparse w) (a : Nat) (v : BitVec w) (h : Sparse.wf m = true) :
    Sparse.wf (Sparse.write m a v) = true := by
  induction m with
  | nil =>
    unfold Sparse.write
    split <;> simp_all [Sparse.wf]
  | cons x m ih =>
    obtain ⟨k, y⟩ := x
    obtain ⟨hy, hlt, hm⟩ := (Sparse.wf_cons k y m).1 h
    unfold Sparse.write
    split
    · rename_i hak
      split
      · exact h
      · rename_i hv
        refine (Sparse.wf_cons _ _ _).2 ⟨hv, ?_, h⟩
        intro e he
        rcases List.mem_cons.1 he with rfl | he
        · exact hak
        · exact lt_trans hak (hlt e he)
    · split
      · rename_i hak
        subst hak
        split
        · exact hm
        · rename_i hv
          exact (Sparse.wf_cons _ _ _).2 ⟨hv, hlt, hm⟩
      · refine (Sparse.wf_cons _ _ _).2 ⟨hy, ?_, ih hm⟩
        intro e he
        rcases Sparse.mem_write m a v e he with he | he
        · exact hlt e he
        · omega

/-- A read after a write to the same place gives the value written. -/
theorem Sparse.read_write_same {w : Nat} (m : Sparse w) (a : Nat) (v : BitVec w) (h : Sparse.wf m = true) :
    Sparse.read (Sparse.write m a v) a = v := by
  induction m with
  | nil =>
    unfold Sparse.write
    split <;> simp_all [Sparse.read]
  | cons x m ih =>
    obtain ⟨k, y⟩ := x
    obtain ⟨hy, hlt, hm⟩ := (Sparse.wf_cons k y m).1 h
    unfold Sparse.write
    split
    · rename_i hak
      split
      · rename_i hv
        rw [hv]
        refine Sparse.read_eq_unlisted _ _ fun e he => ?_
        rcases List.mem_cons.1 he with rfl | he
        · exact hak
        · exact lt_trans hak (hlt e he)
      · simp [Sparse.read]
    · split
      · rename_i hak
        subst hak
        split
        · rename_i hv
          rw [hv]
          exact Sparse.read_eq_unlisted _ _ hlt
        · simp [Sparse.read]
      · rename_i hka
        simp [Sparse.read, Ne.symm hka, ih hm]

/-- A write leaves every other place alone. -/
theorem Sparse.read_write_other {w : Nat} (m : Sparse w) (a b : Nat) (v : BitVec w) (hab : b ≠ a) :
    Sparse.read (Sparse.write m a v) b = Sparse.read m b := by
  induction m with
  | nil =>
    unfold Sparse.write
    split <;> simp [Sparse.read, Ne.symm hab]
  | cons x m ih =>
    obtain ⟨k, y⟩ := x
    unfold Sparse.write
    split
    · split
      · rfl
      · simp [Sparse.read, Ne.symm hab]
    · split
      · rename_i hak
        subst hak
        split <;> simp [Sparse.read, Ne.symm hab]
      · simp [Sparse.read, ih]

/-- Two memories in canonical form that read alike everywhere are the same list. -/
theorem Sparse.ext_of_read {w : Nat} :
    ∀ (m n : Sparse w), Sparse.wf m = true → Sparse.wf n = true →
      (∀ a, Sparse.read m a = Sparse.read n a) → m = n
  | [], [], _, _, _ => rfl
  | [], (k, v) :: n, _, hn, h => by
    have := h k
    simp [Sparse.read] at this
    exact absurd this.symm ((Sparse.wf_cons k v n).1 hn).1
  | (k, v) :: m, [], hm, _, h => by
    have := h k
    simp [Sparse.read] at this
    exact absurd this ((Sparse.wf_cons k v m).1 hm).1
  | (k, v) :: m, (l, x) :: n, hm, hn, h => by
    obtain ⟨hv, hkm, hm'⟩ := (Sparse.wf_cons k v m).1 hm
    obtain ⟨hx, hln, hn'⟩ := (Sparse.wf_cons l x n).1 hn
    have hkl : k = l := by
      rcases lt_trichotomy k l with hlt | heq | hgt
      · have h1 := h k
        rw [Sparse.read_eq_unlisted ((l, x) :: n) k (by
          intro e he
          rcases List.mem_cons.1 he with rfl | he
          · exact hlt
          · exact lt_trans hlt (hln e he))] at h1
        simp [Sparse.read] at h1
        exact absurd h1 hv
      · exact heq
      · have h1 := h l
        rw [Sparse.read_eq_unlisted ((k, v) :: m) l (by
          intro e he
          rcases List.mem_cons.1 he with rfl | he
          · exact hgt
          · exact lt_trans hgt (hkm e he))] at h1
        simp [Sparse.read] at h1
        exact absurd h1.symm hx
    subst hkl
    have hvx : v = x := by simpa [Sparse.read] using h k
    subst hvx
    congr 1
    refine Sparse.ext_of_read m n hm' hn' fun a => ?_
    by_cases hka : k = a
    · subst hka
      rw [Sparse.read_eq_unlisted m k hkm, Sparse.read_eq_unlisted n k hln]
    · simpa [Sparse.read, hka] using h a

/-- A host write keeps `TXT` in canonical form and inside its 256 addresses (R44). -/
theorem Memory.write_wf (m : Memory) (a : Nat) (v : Byte) (h : Memory.wf m = true) (ha : a < 256) :
    Memory.wf (Memory.write m a v) = true := by
  simp only [Memory.wf, Bool.and_eq_true, List.all_eq_true, decide_eq_true_eq] at h ⊢
  refine ⟨Sparse.write_wf m a v h.1, fun e he => ?_⟩
  rcases Sparse.mem_write m a v e he with he | he
  · exact h.2 e he
  · omega

theorem Memory.read_write_same (m : Memory) (a : Nat) (v : Byte) (h : Memory.wf m = true) :
    Memory.read (Memory.write m a v) a = v := by
  simp only [Memory.wf, Bool.and_eq_true] at h
  exact Sparse.read_write_same m a v h.1

theorem Memory.read_write_other (m : Memory) (a b : Nat) (v : Byte) (hab : b ≠ a) :
    Memory.read (Memory.write m a v) b = Memory.read m b :=
  Sparse.read_write_other m a b v hab

theorem reset_memory_wf :
    Memory.wf State.reset.txt = true ∧ Sparse.wf State.reset.clken = true ∧ Sparse.wf State.reset.tcfg = true := by
  decide

end Sys2Proof.Machine
end

