-- ==== Sys2Proof/Laws/Params.lean ====
section
/-! SUPPORT. The deployment meets every constraint of R3, whatever the opaque values are. -/

namespace Sys2Proof.Machine

theorem deployed_prescOk : deployed.prescOk = true := by decide

theorem deployed_channelsOk : deployed.channelsOk = true := by
  have h1 : Config.nChFree % 256 < 256 := Nat.mod_lt _ (by decide)
  have h2 : Config.dispChFree % (1 + Config.nChFree % 256) < 1 + Config.nChFree % 256 := Nat.mod_lt _ (by omega)
  have h3 : ∀ x, x % 2 < 2 := fun x => Nat.mod_lt _ (by decide)
  have h4 : ∀ x : Nat, 1 + x % (2 ^ 32 - 1) < 2 ^ 32 := fun x => by
    have := Nat.mod_lt x (show 2 ^ 32 - 1 > 0 by decide)
    omega
  have h5 : 1 + Config.nChFree % 256 ≤ 256 := by omega
  simp only [Params.channelsOk, Bool.and_eq_true, List.all_eq_true, decide_eq_true_eq]
  exact ⟨⟨⟨⟨⟨⟨Nat.le_add_right _ _, h5⟩, h2⟩, fun _ _ => h3 _⟩, fun _ _ => ⟨Nat.le_add_right _ _, h4 _⟩⟩,
    Nat.le_add_right _ _⟩, h4 _⟩

theorem deployed_glyphsOk : deployed.glyphsOk = true := by
  have h : Config.glyphCountFree % 224 < 224 := Nat.mod_lt _ (by decide)
  have h1 : 33 + Config.glyphCountFree % 224 ≤ 256 := by omega
  simp only [Params.glyphsOk, Bool.and_eq_true, List.all_eq_true, decide_eq_true_eq]
  exact ⟨⟨Nat.le_add_right _ _, h1⟩, fun _ _ => by simp [deployed]⟩

theorem deployed_delaysOk : deployed.delaysOk = true := by
  simp [Params.delaysOk, deployed]

theorem deployed_levelsOk : deployed.levelsOk = true := by decide

/-- R3. -/
theorem deployed_ok : deployed.ok = true := by
  simp [Params.ok, deployed_prescOk, deployed_channelsOk, deployed_glyphsOk, deployed_delaysOk, deployed_levelsOk]

end Sys2Proof.Machine
end

