-- ==== Sys2Proof/Laws/PerInstr.lean ====
section
/-! SUPPORT. The family `Layout`: every operation's command word is its opcode, its `A` and its `B`, and its
opcode is one of the table of R71. -/

namespace Sys2Proof.Laws.Layout

/-- Where an operation's word holds what (R70, R71). -/
def Statement (i : Instr) : Prop :=
  opField (encode i) = i.opcode ∧ aField (encode i) = i.operandA ∧ bField (encode i) = i.operandB ∧
    i.opcode ∈ definedOpcodes ∧ opField i.usedBits = 0xFF

theorem of_opcode {i : Instr} (h : i.opcode ∈ definedOpcodes) (hu : opField i.usedBits = 0xFF) : Statement i :=
  ⟨opField_commandWord _ _ _, aField_commandWord _ _ _, bField_commandWord _ _ _, h, hu⟩

theorem seldiv (bus target : Word) : Statement (.seldiv bus target) :=
  of_opcode (by simp [Instr.opcode, definedOpcodes]) (opField_commandWord _ _ _)

theorem configure (ch pp : Word) : Statement (.configure ch pp) :=
  of_opcode (by simp [Instr.opcode, definedOpcodes]) (opField_commandWord _ _ _)

theorem wrctl (pwm peak : Byte) (sleep : BitVec 1) : Statement (.wrctl pwm peak sleep) :=
  of_opcode (by simp [Instr.opcode, definedOpcodes]) (opField_commandWord _ _ _)

theorem wrglyph (c0 c1 c2 c3 : Byte) : Statement (.wrglyph c0 c1 c2 c3) :=
  of_opcode (by simp [Instr.opcode, definedOpcodes]) (opField_commandWord _ _ _)

theorem clear : Statement .clear :=
  of_opcode (by simp [Instr.opcode, definedOpcodes]) (opField_commandWord _ _ _)

theorem init (pp : Word) : Statement (.init pp) :=
  of_opcode (by simp [Instr.opcode, definedOpcodes]) (opField_commandWord _ _ _)

theorem scroll (base : BitVec 8) : Statement (.scroll base) :=
  of_opcode (by simp [Instr.opcode, definedOpcodes]) (opField_commandWord _ _ _)

theorem renderInt (i : Word) : Statement (.renderInt i) :=
  of_opcode (by simp [Instr.opcode, definedOpcodes]) (opField_commandWord _ _ _)

theorem renderFloat (bits : Word) : Statement (.renderFloat bits) :=
  of_opcode (by simp [Instr.opcode, definedOpcodes]) (opField_commandWord _ _ _)

theorem renderErr (code : Word) : Statement (.renderErr code) :=
  of_opcode (by simp [Instr.opcode, definedOpcodes]) (opField_commandWord _ _ _)

end Sys2Proof.Laws.Layout
end

