-- ==== Sys2Proof/Laws/Windows.lean ====
section
/-! SUPPORT. What a whole window, a refusal and a frame's load leave, in the terms of Safety.lean, with no
input of the host pending. -/

namespace Sys2Proof.Machine

/-- A payload of given bytes is those bytes. -/
@[simp] theorem map_datumByte_byte (p : Params) (bs : List Byte) (s : State) :
    (bs.map Datum.byte).map (datumByte p · s) = bs := by
  induction bs with
  | nil => rfl
  | cons b bs ih => simpa [datumByte] using ih

/-- The payload of `frameData` is the frame of `CH4` (R85). -/
@[simp] theorem map_datumByte_frameData (p : Params) (s : State) :
    frameData.map (datumByte p · s) = frame p s.ch4 := by
  simp [frameData, frame, Function.comp_def, datumByte]

@[simp] theorem frame_length (p : Params) (f : Four) : (frame p f).length = 20 := by simp [frame]

/-- A window that is the rest of an operation. -/
theorem runScript_window_end (p : Params) (sp : Space) (data : List Datum) (s : State) (h : s.inputs = []) :
    runScript p (window p sp data) s =
      (endOperation p (windowDone p sp (data.map (datumByte p · s)) s), none) := by
  have hw := runScript_window p sp data [] s h
  rwa [List.append_nil, runScript_nil] at hw

@[simp] theorem windowDone_inputs (p : Params) (sp : Space) (payload : List Byte) (s : State) :
    (windowDone p sp payload s).inputs = s.inputs := by simp [windowDone]

/-- An operation that is one window has written it. -/
theorem wroteWindow_of_windowDone (p : Params) (sp : Space) (payload : List Byte) (s : State) :
    WroteWindow p sp payload s (endOperation p (windowDone p sp payload s)) where
  trace := rfl
  txf := rfl
  err := by simp [windowDone]
  rs := rfl
  ce := rfl
  ph := rfl
  ended := ⟨rfl, rfl⟩
  frame :=
    { host := ⟨by simp [windowDone], by simp [windowDone], by simp [windowDone], by simp [windowDone],
        by simp [windowDone], by simp [windowDone], by simp [windowDone]⟩
      transport := ⟨by simp [windowDone], by simp [windowDone]⟩
      warnings := ⟨by simp [windowDone], by simp [windowDone]⟩
      res := by simp [windowDone]
      rst := by simp [windowDone] }

/-- A raise before anything happened is a refusal (R206). -/
theorem refusedWith_raise (p : Params) (e : Err) (s : State) : RefusedWith e s (raise p e s) where
  reports := ⟨rfl, rfl⟩
  ended := ⟨rfl, rfl⟩
  host := ⟨rfl, rfl, rfl, fun _ => rfl, rfl, rfl, rfl⟩
  transport := ⟨fun _ => rfl, fun _ => rfl⟩
  pins := ⟨rfl, rfl, rfl, rfl⟩
  warnings := ⟨rfl, rfl⟩
  txf := rfl
  res := rfl

/-! ### Reading text -/

/-- A byte that was not changed while `BUSY` reads as it is (R44, R66). -/
theorem readText_of_unchanged (p : Params) (a : Nat) (s : State) (h : ∀ e ∈ s.stale, e.1 ≠ a) :
    readText p a s = (Memory.read s.txt a, s) := by
  have hf : s.stale.filter (fun e => e.1 = a) = [] := by simpa using h
  simp [readText, heldBytes, hf]

/-- With no byte changed while `BUSY`, a frame of a long string is the four bytes at its address. -/
theorem readFrame_four (p : Params) (a : Nat) (s : State) (h : s.stale = []) :
    readFrame p a 4 s = (textWindow s.txt a, s) := by
  simp [readFrame, frameChar, readText_of_unchanged, h, textWindow]

/-- With no byte changed while `BUSY`, the frame of a short string is its bytes, then spaces. -/
theorem readFrame_short (p : Params) (a n : Nat) (s : State) (h : s.stale = []) :
    readFrame p a n s = (shortFrame s.txt a n, s) := by
  have hc : ∀ i, frameChar p a n i s = (if i < n then Memory.read s.txt (a + i) else space, s) := by
    intro i
    unfold frameChar
    split <;> simp_all [readText_of_unchanged]
  simp [readFrame, hc, shortFrame]

/-- Four codes with glyphs have no bad one. -/
theorem badCode_eq_none {p : Params} {f : Four} :
    badCode p f = none ↔ ∀ c ∈ [f.c0, f.c1, f.c2, f.c3], c.toNat < p.glyphCount := by
  simp [badCode, hasGlyph]

end Sys2Proof.Machine
end

