-- ==== Sys2Proof/Laws/Step.lean ====
section
/-! SUPPORT. Whose turn a step is. -/

namespace Sys2Proof.Machine

/-- The machine is the one of Advance.lean at the deployment's parameters. -/
theorem exec_eq_execWith : exec = execWith deployed := by
  funext i s
  cases i <;> rfl

theorem step_eq_stepWith : step = stepWith deployed := by
  funext s
  simp [step, stepWith, exec_eq_execWith]

/-- With no input of the host due, the step is KBSD's turn. -/
theorem step_of_not_due {s : State} (h : inputDue s = false) : step s = takeTurn exec deployed s := by
  unfold inputDue at h
  unfold step advance
  split <;> simp_all

/-- An input of the host that is due lands. -/
theorem step_of_due {s : State} {act : HostAct} {rest : List HostInput} (h : s.inputs = ⟨0, act⟩ :: rest) :
    step s = .next (landInput deployed act { s with inputs := rest }) := by
  simp [step, advance, h]

/-- A running operation goes on (R12, R13). -/
theorem step_of_busy {s : State} (h : inputDue s = false) (hb : s.busy = true) :
    step s = runOutcome (runScript deployed s.todo { s with todo := [] }) := by
  rw [step_of_not_due h]
  simp [takeTurn, hb, resume]

/-- The next command is accepted (R70). -/
theorem step_of_command {s : State} {cw : CmdWord} {rest : List CmdWord} (h : inputDue s = false)
    (hb : s.busy = false) (hp : s.port = cw :: rest) :
    step s = runCommand exec cw { s with port := rest } := by
  rw [step_of_not_due h]
  simp [takeTurn, hb, hp]

/-- What a fetch puts at the port is what the very next step accepts. -/
theorem step_withFetchWord (s : State) (nbits w : Nat) :
    step (s.withFetchWord nbits w) =
      runCommand exec (tableCommand nbits w) { s with busy := false, todo := [], inputs := [] } := by
  rw [step_of_command (s := s.withFetchWord nbits w) rfl rfl rfl]
  rfl

end Sys2Proof.Machine
end

