-- ==== Sys2Proof/Laws/Transport.lean ====
section
/-! SUPPORT. The steps of the Transport Configurator, each as one equation. -/

namespace Sys2Proof.Machine

/-- A gate that is not off is on. -/
theorem gate_on_of_ne {x : BitVec 1} (h : x ≠ 0) : x = 1 := by
  revert x
  decide

/-- Writing what a cell holds changes nothing. -/
theorem Sparse.write_read {w : Nat} (m : Sparse w) (a : Nat) (h : Sparse.wf m = true) :
    Sparse.write m a (Sparse.read m a) = m := by
  refine Sparse.ext_of_read _ _ (Sparse.write_wf m a _ h) h fun b => ?_
  by_cases hb : b = a
  · rw [hb, Sparse.read_write_same m a _ h]
  · exact Sparse.read_write_other m a b _ hb

/-- All that R122 does: the gate is on, with one event if it was off. -/
theorem enableGate_eq (ch : Nat) (s : State) (h : Sparse.wf s.clken = true) :
    enableGate ch s =
      { s with
        clken := Sparse.write s.clken ch 1
        trace := s.trace ++ (if Sparse.read s.clken ch = 0 then [.clkGate ch] else []) } := by
  unfold enableGate
  split
  · rfl
  · rename_i hc
    have hw : Sparse.write s.clken ch 1 = s.clken := by
      have := Sparse.write_read s.clken ch h
      rwa [gate_on_of_ne hc] at this
    rw [hw, List.append_nil]

/-- The fields of the staged configuration (R123, R124, R125). -/
theorem stagedCfg_fields (p : Params) (ch : Nat) (pp : Word) :
    cfgValid (stagedCfg p ch pp) = 0 ∧ cfgMstr (stagedCfg p ch pp) = 1 ∧ cfgHwcs (stagedCfg p ch pp) = 0 ∧
      cfgLsbf (stagedCfg p ch pp) = 0 ∧ cfgW16 (stagedCfg p ch pp) = 0 ∧ cfgZero (stagedCfg p ch pp) = 0 ∧
      cfgBr (stagedCfg p ch pp) = prescCode p (channelDivisor p ch).1 ∧
      cfgCpha (stagedCfg p ch pp) = ((ppMap pp).getD (0, 0)).1 ∧
      cfgCpol (stagedCfg p ch pp) = ((ppMap pp).getD (0, 0)).2 := by
  unfold stagedCfg
  generalize prescCode p _ = code
  generalize (ppMap pp).getD (0, 0) = m
  obtain ⟨m1, m2⟩ := m
  revert code m1 m2
  decide

/-- A legal code has an entry in `PPMAP` (R83). -/
theorem ppMap_of_legal {pp : Word} (h : pp.toNat < 4) : ppMap pp = some ((ppMap pp).getD (0, 0)) := by
  unfold ppMap
  generalize pp.toNat = n at h
  interval_cases n <;> rfl

end Sys2Proof.Machine
end

