-- ==== Sys2Proof/Tests/Slice0.lean ====
section
/-! SUPPORT. Tests. Every expected value is written out from spec/95_test_vectors.md (the vector is named) or
from the rule named; then, for every statement with hypotheses, a state and operands that meet them. -/

namespace Sys2Proof.Tests

open Sys2Proof Sys2Proof.Machine

/-! ### The example configuration EX (95, section 0) -/

/-- A glyph table of distinct columns for the tests; the space's columns are zero (R48). -/
def g (c j : Nat) : Byte := if c = 32 then 0 else BitVec.ofNat 8 (c + 50 * j + 1)

/-- EX, its open formats and free values at fixed ones. -/
def ex : Params where
  presc := [⟨2, 0⟩, ⟨4, 1⟩, ⟨8, 2⟩, ⟨16, 3⟩, ⟨32, 4⟩, ⟨64, 5⟩, ⟨128, 6⟩, ⟨256, 7⟩]
  nDom := 2
  nCh := 2
  chDom ch := ch
  busFreq d := if d = 0 then 42000000 else 84000000
  targetFreq := 5000000
  dispCh := 0
  glyphCount := 161
  glyph := g
  tSettleUs := 1
  tPostUs := 10
  tResetMs := 10
  tScrollMs := 1000
  txTimeout := 7
  rsCtrl := 1
  rsDot := 0
  pwmFixed := 15
  peakFixed := 3
  wakeS := 0
  fmtFloat _ := ⟨70, 76, 84, 46⟩
  fmtErr _ := ⟨69, 82, 82, 200⟩
  freeStatus _ := .fail
  freeTcfg _ := 0xFFFF
  freeIdx _ := 31
  freeCh4 _ := ⟨1, 2, 3, 4⟩
  freeWin _ := 99
  freeLen _ := 500
  freePick n := n

/-! ### Well-formedness: each check of R3 refuses an ill-formed record -/

theorem test_ex_ok : ex.ok = true := by decide
theorem test_presc_empty : ({ ex with presc := [] } : Params).ok = false := by decide
theorem test_presc_zero : ({ ex with presc := [⟨0, 0⟩, ⟨2, 1⟩] } : Params).ok = false := by decide
theorem test_presc_order : ({ ex with presc := [⟨4, 0⟩, ⟨4, 1⟩] } : Params).ok = false := by decide
theorem test_presc_codes : ({ ex with presc := [⟨2, 1⟩, ⟨4, 1⟩] } : Params).ok = false := by decide
theorem test_channels_none : ({ ex with nCh := 0 } : Params).ok = false := by decide
theorem test_channels_many : ({ ex with nCh := 257, chDom := fun _ => 0 } : Params).ok = false := by decide
theorem test_display_channel : ({ ex with dispCh := 2 } : Params).ok = false := by decide
theorem test_domain : ({ ex with chDom := fun _ => 2 } : Params).ok = false := by decide
theorem test_bus_zero : ({ ex with busFreq := fun _ => 0 } : Params).ok = false := by decide
theorem test_bus_wide : ({ ex with busFreq := fun _ => 2 ^ 32 } : Params).ok = false := by decide
theorem test_target_zero : ({ ex with targetFreq := 0 } : Params).ok = false := by decide
theorem test_target_wide : ({ ex with targetFreq := 2 ^ 32 } : Params).ok = false := by decide
theorem test_glyphs_few : ({ ex with glyphCount := 32 } : Params).ok = false := by decide
theorem test_glyphs_many : ({ ex with glyphCount := 257 } : Params).ok = false := by decide
theorem test_glyph_space : ({ ex with glyph := fun _ _ => 1 } : Params).ok = false := by decide
theorem test_settle : ({ ex with tSettleUs := 0 } : Params).ok = false := by decide
theorem test_post : ({ ex with tPostUs := 9 } : Params).ok = false := by decide
theorem test_reset_hold : ({ ex with tResetMs := 9 } : Params).ok = false := by decide
theorem test_scroll_pause : ({ ex with tScrollMs := 999 } : Params).ok = false := by decide
theorem test_levels : ({ ex with rsCtrl := 0 } : Params).ok = false := by decide

/-! ### Decoding: words written out from R70 to R78 and 95 -/

theorem test_decode_seldiv : decode 0x0100895440001E8480 = .ok (.seldiv 9000000 2000000) := by decide  -- V8
theorem test_decode_configure : decode 0x020000000100000003 = .ok (.configure 1 3) := by decide  -- P2
theorem test_decode_wrctl : decode 0x10FFFE020FDEADBEEF = .ok (.wrctl 0x0F 2 0) := by decide  -- V39b
theorem test_decode_wrctl_sleep : decode 0x100001030F00000000 = .ok (.wrctl 15 3 1) := by decide  -- P3
theorem test_decode_wrglyph : decode 0x114142434400000000 = .ok (.wrglyph 65 66 67 68) := by decide  -- P4
theorem test_decode_clear : decode 0x12FFFFFFFFFFFFFFFF = .ok .clear := by decide  -- R77
theorem test_decode_init : decode 0x200000000200000000 = .ok (.init 2) := by decide  -- P3
theorem test_decode_scroll : decode 0x21ABCDEF0500000000 = .ok (.scroll 5) := by decide  -- V46e
theorem test_decode_render_int : decode 0x22FFFFFFFF00000000 = .ok (.renderInt (-1)) := by decide  -- V61
theorem test_decode_render_float : decode 0x233F80000000000000 = .ok (.renderFloat 0x3F800000) := by decide  -- R76
theorem test_decode_render_err : decode 0x240000000700000001 = .ok (.renderErr 7) := by decide  -- R76, R77
/-- V69a: the edges of the reserved ranges. -/
theorem test_decode_reserved :
    decode 0x030000000000000000 = .error (.reservedOpcode 0x03) ∧
      decode 0x0F0000000000000000 = .error (.reservedOpcode 0x0F) ∧
      decode 0x130000000000000000 = .error (.reservedOpcode 0x13) ∧
      decode 0x1F0000000000000000 = .error (.reservedOpcode 0x1F) ∧
      decode 0x250000000000000000 = .error (.reservedOpcode 0x25) := by decide
theorem test_decode_table_word : decodeTableWord 72 0x120000000000000000 = some .clear := by decide

/-! ### The vectors of 95, part 2 -/

/-- The state after one command is presented and run. -/
def ran (cw : CmdWord) (s : State) : Option State :=
  match stepWith ex (presentNext cw s) with
  | .next t => some t
  | .fault _ => none
  | .refused _ => none

/-- Reset, with 60 answers fixed to ok. -/
def fresh : State := { State.reset with answers := List.replicate 60 .ok }

/-- The display configured as V27 leaves it, with the trace empty. -/
def configured : State := { fresh with clken := [(0, 1)], tcfg := [(0, 0x0214)] }

/-- `W(space; payload)` of 95 with all draws ok. -/
def w (v : Level) (payload : List Byte) : List Event :=
  [.pin .rs v, .delayUs 1, .pin .ce 0] ++ payload.map (fun b => .tx 0 b .ok) ++
    [.delayUs 10, .pin .ce 1, .tx 0 0 .ok]

/-- `G(c)` of 95. -/
def gl (c : Nat) : List Byte := [g c 0, g c 1, g c 2, g c 3, g c 4]

/-- V11. -/
theorem test_seldiv_low :
    (ran 0x010280DE80000186A0 fresh).map (fun t => (t.res, t.stat, t.trace)) =
      some (7, 0x100, [.log .wDivLow]) := by decide
/-- V14. -/
theorem test_seldiv_zero :
    (ran (commandWord 1 0 5) fresh).map (fun t => (t.res, t.stat, t.trace)) =
      some (0, 0x050, [.log .eIllegalOperand]) := by decide
/-- V20 to V24a: tables of other sizes and spacings. -/
theorem test_seldiv_tables :
    selDiv [3, 5, 10] 100 20 = (1, .none) ∧ selDiv [3, 5, 10] 100 16 = (2, .low) ∧
      selDiv [3, 5, 10] 100 34 = (0, .high) ∧ selDiv [7] 49 7 = (0, .high) ∧ selDiv [7] 56 7 = (0, .low) ∧
      selDiv [2, 4] 6 2 = (1, .low) ∧ selDiv [2, 4] 4 2 = (0, .high) := by decide
/-- V26: `CONFIGURE 1, 0`. -/
theorem test_configure :
    (ran 0x020000000100000000 fresh).map (fun t => (t.clken, t.tcfg, t.stat, t.trace)) =
      some ([(1, 1)], [(1, 0x021C)], 0x000, [.clkGate 1, .tinit 1 0x001C .ok]) := by decide
/-- V31c: a channel that worked no longer does; its other fields are the free value's low nine bits. -/
theorem test_configure_fails :
    (ran 0x020000000000000000 { configured with answers := [.fail] }).map
        (fun t => (t.tcfg, t.stat, t.trace)) =
      some ([(0, 0x01FF)], 0x030, [.tinit 0 0x0014 .fail, .log .eTransportInitFailed]) := by decide
/-- V32. -/
theorem test_wrctl :
    (ran 0x100001020F00000000 configured).map (fun t => (t.trace, t.rs, t.ce, t.ph, t.stat)) =
      some (w 1 [0x6F], 1, 1, .idle, 0) := by decide
/-- V36 to V39a: what the control byte drops. -/
theorem test_control_byte :
    controlByte 0x1F 0 0 = 0x0F ∧ controlByte 0xF0 0 0 = 0x00 ∧ controlByte 0 7 0 = 0x30 ∧
      controlByte 0 4 0 = 0x00 ∧ controlByte 0xFF 0xFF 1 = 0x7F ∧ controlByte 5 1 0 = 0x15 := by decide
/-- V50: the third payload byte fails. -/
theorem test_wrglyph_tx_failed :
    (ran 0x114142434400000000 { configured with answers := [.ok, .ok, .fail] ++ List.replicate 18 .ok }).map
        (fun t => (t.stat, t.trace.length, t.trace.take 7, (t.shadow ex).dot)) =
      some (0x400, 27,
        [.pin .rs 0, .delayUs 1, .pin .ce 0, .tx 0 (g 65 0) .ok, .tx 0 (g 65 1) .ok, .tx 0 (g 65 2) .fail,
          .log .eTxFailed],
        none) := by decide
/-- V52: code 200 has no glyph. -/
theorem test_wrglyph_index :
    (ran 0x1141C8424300000000 configured).map (fun t => (t.stat, t.trace)) =
      some (0x070, [.log .eGlyphIndex]) := by decide
/-- V48. -/
theorem test_clear :
    (ran 0x120000000000000000 configured).map (fun t => (t.trace, (t.shadow ex).dot)) =
      some (w 0 (List.replicate 20 0), some (List.replicate 20 0)) := by decide
/-- V71. -/
theorem test_clear_not_configured :
    (ran 0x120000000000000000 fresh).map (fun t => (t.stat, t.trace)) =
      some (0x060, [.log .eNotConfigured]) := by decide
/-- V65. -/
theorem test_init :
    (ran 0x200000000000000000 fresh).map (fun t => t.trace) =
      some ([.gpioCfg, .clkGate 0, .tinit 0 0x0014 .ok, .pin .rst 0, .delayMs 10, .pin .rst 1] ++
        w 0 (List.replicate 20 0) ++ w 1 [0x3F]) := by decide
/-- V66. -/
theorem test_init_polarity :
    (ran 0x200000000700000000 fresh).map (fun t => (t.stat, t.rst, t.trace)) =
      some (0x010, 1, [.gpioCfg, .clkGate 0, .log .eInvalidPolarity]) := by decide
/-- V44. -/
theorem test_scroll :
    (ran 0x210000000000000000 { configured with txt := [(0, 65), (1, 66), (2, 67), (3, 68), (4, 69)] }).map
        (fun t => t.trace) =
      some (w 0 (gl 65 ++ gl 66 ++ gl 67 ++ gl 68) ++ [.delayMs 1000] ++
        w 0 (gl 66 ++ gl 67 ++ gl 68 ++ gl 69)) := by decide
/-- V46a: no terminator up to address 255. -/
theorem test_scroll_unterminated :
    (ran (commandWord 0x21 250 0)
        { configured with
          txt := [(250, 0x41), (251, 0x41), (252, 0x41), (253, 0x41), (254, 0x41), (255, 0x41)] }).map
        (fun t => (t.stat, t.trace)) =
      some (0x050, [.log .eIllegalOperand]) := by decide
/-- V53. -/
theorem test_render_int :
    (ran 0x220000002A00000000 configured).map (fun t => t.trace) =
      some (w 0 (gl 48 ++ gl 48 ++ gl 52 ++ gl 50)) := by decide
/-- V54 to V64. -/
theorem test_int_format :
    fmtInt 0 = ⟨0x30, 0x30, 0x30, 0x30⟩ ∧ fmtInt 9999 = ⟨0x39, 0x39, 0x39, 0x39⟩ ∧
      fmtInt 10000 = ⟨0x31, 0x30, 0x30, 0x30⟩ ∧ fmtInt 2147483647 = ⟨0x32, 0x31, 0x34, 0x37⟩ ∧
      fmtInt (-5) = ⟨0x2D, 0x30, 0x30, 0x35⟩ ∧ fmtInt (-999) = ⟨0x2D, 0x39, 0x39, 0x39⟩ ∧
      fmtInt (-1000) = ⟨0x2D, 0x31, 0x30, 0x30⟩ ∧ fmtInt (-2147483648) = ⟨0x2D, 0x32, 0x31, 0x34⟩ := by decide
/-- R182: the frame of `FMT_FLOAT`'s codes. -/
theorem test_render_float :
    (ran 0x233F80000000000000 configured).map (fun t => t.trace) =
      some (w 0 (gl 70 ++ gl 76 ++ gl 84 ++ gl 46)) := by decide
/-- R183: a format that yields a code with no glyph. -/
theorem test_render_err :
    (ran 0x240000000700000000 configured).map (fun t => (t.stat, t.trace)) =
      some (0x070, [.log .eGlyphIndex]) := by decide
/-- V74: a reserved opcode; the flags of the earlier command are gone. -/
theorem test_reserved :
    (ran 0x000000000000000000 { fresh with warnHigh := true }).map (fun t => (t.stat, t.trace)) =
      some (0x040, [.log .eIllegalCommand]) := by decide
/-- V75, R12: an input lands in mid-operation; `BUSY` stays 1 and the presented `CLEAR` stays held. -/
theorem test_held :
    (match stepWith ex { configured with
        port := [0x220000002A00000000, 0x120000000000000000], inputs := [⟨5, .writeTxt 0 65⟩] } with
      | .next t => some (t.busy, t.port, t.trace.length, t.ph)
      | _ => none) = some (true, [0x120000000000000000], 3, .writing) := by decide
/-- A window of the dot space is open when the reset input comes. -/
def cutShort : State :=
  { configured with
    busy := true, ph := .enabled, ce := 0, trace := [.pin .rs 0, .delayUs 1, .pin .ce 0]
    dev0 := { Shadow.start with dot := some [1], ctrl := some 2 }
    todo := [.startData], inputs := [⟨0, .reset⟩] }

/-- R242: a reset in an open window. -/
theorem test_reset_in_window :
    (match stepWith ex cutShort with
      | .next t => some (t.busy, t.ce, t.ph, t.trace)
      | _ => none) = some (false, 1, .idle, []) := by decide
/-- R242: what the device holds then. -/
theorem test_reset_in_window_device :
    (cutShort.shadow ex).onBlockReset ex =
      { Shadow.start with rs := some 0, sel := .dot, ctrl := some 2, dot := none, rsSettled := true } := by decide
/-- R50, R53: the byte 0xA1 on a channel configured with code 2. -/
theorem test_waveform :
    (waveform 0x0217 0xA1).map (fun c => (c.sdo, c.samples)) =
      [(1, .trailing), (0, .trailing), (1, .trailing), (0, .trailing), (0, .trailing), (0, .trailing),
        (0, .trailing), (1, .trailing)] := by decide
/-- R53: with `CPHA = 1` the last two periods (bits 0 and 1) of 0xA1: `SDO` moves on or after each leading edge,
which falls with `CPOL = 1`, and is stable across each trailing one. -/
theorem test_edges_trailing :
    (byteEdges 0x0217 0xA1).drop 12 =
      [⟨.leading, .falling, some 0, none⟩, ⟨.trailing, .rising, some 0, some 0⟩,
        ⟨.leading, .falling, some 0, none⟩, ⟨.trailing, .rising, some 1, some 1⟩] := by decide
/-- R53: with `CPHA = 0` a bit is stable from before the leading edge up to the trailing one. -/
theorem test_edges_leading :
    (byteEdges 0x0214 0xA1).take 3 =
      [⟨.leading, .rising, some 1, some 1⟩, ⟨.trailing, .falling, some 1, none⟩,
        ⟨.leading, .rising, some 0, some 0⟩] := by decide
/-- R54: a failed byte takes its eight bit periods too; in EX the bit clock of 0x0214 is 5250000 Hz. -/
theorem test_failed_byte_time : eventMicros ex [(0, 0x0214)] (.tx 0 0 .fail) = 8 * 1000000 / 5250000 := by
  rw [show eventMicros ex [(0, 0x0214)] (.tx 0 0 .fail) = 8 * 1000000 / (((42000000 : Nat) : Rat) / ((8 : Nat) : Rat))
    from rfl]
  norm_num
/-- R87, R88: assembly. -/
theorem test_assemble :
    assemble ex ⟨.sleep, []⟩ = some (.wrctl 15 3 1) ∧
      assemble ex ⟨.configure, [.num 1, .name .trailFalling]⟩ = some (.configure 1 3) ∧
      assemble ex ⟨.wrglyph, [.text ['A', 'B', 'C', 'D']]⟩ = some (.wrglyph 65 66 67 68) ∧
      assemble ex ⟨.renderInt, [.num (-1)]⟩ = some (.renderInt 0xFFFFFFFF) ∧
      assemble ex ⟨.wrctl, [.num 256, .num 0, .num 0]⟩ = none := by decide

/-! ### Witnesses: states and operands that meet the hypotheses of each statement -/

/-- The display configured as V27 leaves it, in this deployment, with `answers` fixed. -/
def ready (answers : List Status) : State :=
  { State.reset with tcfg := Sparse.write [] deployed.dispCh 0x0214, answers := answers }

/-- A string of the codes 1, 2, ..., `n` from address 0, which every glyph table has. -/
def textTo (n : Nat) : Memory := (List.range n).map fun i => (i, BitVec.ofNat 8 (i + 1))

/-- What `ready` holds for its one channel, and for the others. -/
theorem ready_tcfg (answers : List Status) : Sparse.read (ready answers).tcfg deployed.dispCh = 0x0214 := by
  show Sparse.read (Sparse.write [] deployed.dispCh 0x0214) deployed.dispCh = 0x0214
  exact Sparse.read_write_same (w := 16) [] _ _ rfl

theorem ready_tcfg_other (answers : List Status) {ch : Nat} (h : ch ≠ deployed.dispCh) :
    Sparse.read (ready answers).tcfg ch = 0 := by
  show Sparse.read (Sparse.write [] deployed.dispCh 0x0214) ch = 0
  exact Sparse.read_write_other (w := 16) [] _ _ _ h

theorem ready_valid (answers : List Status) : channelValid (ready answers) deployed.dispCh = true := by
  rw [channelValid, ready_tcfg]
  decide

theorem space_has_glyph : (32 : Byte).toNat < deployed.glyphCount := by
  have h : (32 : Byte).toNat = 32 := by decide
  rw [h]
  simp only [deployed]
  omega

theorem witness_UnusedBitsAreIgnored :
    decode 0x120000000000000000 = .ok .clear ∧ (0x12FFFFFFFFFFFFFFFF : CmdWord) ≠ 0x120000000000000000 ∧
      (0x12FFFFFFFFFFFFFFFF : CmdWord) &&& Instr.clear.usedBits = 0x120000000000000000 &&& Instr.clear.usedBits ∧
      inputDue State.reset = false ∧ State.reset.busy = false := by
  decide

/-- The next state of the statement's second clause. -/
theorem witness_UnusedBitsAreIgnored_step :
    ∃ t, step { State.reset with port := [0x120000000000000000] } = .next t := ⟨_, rfl⟩

theorem witness_StepRunsTheDecodedCommand :
    inputDue (presentNext 0x120000000000000000 State.reset) = false ∧
      (presentNext 0x120000000000000000 State.reset).busy = false ∧
      (presentNext 0x120000000000000000 State.reset).port = [0x120000000000000000] ∧
      decode 0x120000000000000000 = .ok .clear := by decide

theorem witness_ReservedOpcodeIsReported :
    inputDue (presentNext 0x250000000000000000 State.reset) = false ∧
      (presentNext 0x250000000000000000 State.reset).busy = false ∧
      (presentNext 0x250000000000000000 State.reset).port = [0x250000000000000000] ∧
      opField 0x250000000000000000 ∉ definedOpcodes := by decide

theorem witness_RunningOperationHoldsOffCommands :
    inputDue { State.reset with busy := true } = false ∧
      ∃ t, step { State.reset with busy := true } = .next t := ⟨rfl, _, rfl⟩

theorem witness_IdleBlockWaits :
    State.reset.inputs = [] ∧ State.reset.busy = false ∧ State.reset.port = [] := by decide

/-- Each of the three clauses about the device. -/
theorem witness_ResetInputAbandonsTheOperation :
    (∀ d : Shadow, ({ State.reset with inputs := [⟨0, .reset⟩], dev0 := d } : State).shadow deployed = d) ∧
      (Shadow.start.ce = 1 ∧ Shadow.start.pend = none ∧ Shadow.start.rst = 1) ∧
      (({ Shadow.start with ce := 0 } : Shadow).sel = .ctrl) ∧
      (({ Shadow.start with ce := 0, sel := .dot } : Shadow).ce = 0) := ⟨fun _ => rfl, by decide⟩

/-- The invariant holds with the display configured. -/
theorem ready_inv (answers : List Status) : Inv (ready answers) where
  chipEnable := by simp [ready, State.reset]
  idleWhenDone := fun _ => ⟨rfl, rfl, rfl⟩
  position := rfl
  configuredFirst := rfl
  fixedSettings := fun ch h => by
    by_cases hc : ch = deployed.dispCh
    · rw [hc, ready_tcfg]
      decide
    · rw [ready_tcfg_other _ hc] at h
      exact absurd h (by decide)
  zeroBits := fun ch => by
    by_cases hc : ch = deployed.dispCh
    · rw [hc, ready_tcfg]
      decide
    · rw [ready_tcfg_other _ hc]
      decide
  gates := fun ch => by simp [ready, State.reset, Sparse.read, Sparse.unlisted]
  text := by simp only [ready]; decide
  gateMap := by simp only [ready]; decide
  cfgMap := Sparse.write_wf _ _ _ rfl

/-- `CLEAR` on a configured display, presented. -/
def clearing : State := { ready (List.replicate 21 .ok) with port := [0x120000000000000000] }

theorem clearing_step : step clearing = exec .clear (accept 0x120000000000000000 (ready (List.replicate 21 .ok))) := rfl

theorem clearing_trace : ∃ t, step clearing = .next t ∧
    t.trace = clearing.trace ++ windowEvents deployed .dot (List.replicate 20 0) (List.replicate 21 .ok) := by
  refine ⟨_, clearing_step, ?_⟩
  simp only [clear, planClear, perform, clearWindow]
  rw [show channelValid (accept 0x120000000000000000 (ready (List.replicate 21 .ok))) deployed.dispCh = true from
    ready_valid (List.replicate 21 .ok)]
  simp only [Bool.not_true, Bool.false_eq_true, if_false]
  rw [runScript_window_end _ _ _ _ rfl, map_datumByte_byte]
  rw [(wroteWindow_of_windowDone deployed .dot clearFrame _).trace]
  rfl

theorem clearing_inv : Inv clearing :=
  let h := ready_inv (List.replicate 21 .ok)
  ⟨h.chipEnable, h.idleWhenDone, h.position, h.configuredFirst, h.fixedSettings, h.zeroBits, h.gates, h.text,
    h.gateMap, h.cfgMap⟩

theorem witness_EveryStepKeepsTheInvariant : ∃ t, Inv clearing ∧ step clearing = .next t := by
  obtain ⟨t, h, -⟩ := clearing_trace
  exact ⟨t, clearing_inv, h⟩

theorem witness_TransmitsOnlyOnAValidDisplayChannel :
    ∃ t es, Inv clearing ∧ step clearing = .next t ∧ t.trace = clearing.trace ++ es ∧
      (∃ pre ch b st post, es = pre ++ Event.tx ch b st :: post) ∧
      ∀ rest, clearing.inputs ≠ ⟨0, .reset⟩ :: rest := by
  obtain ⟨t, h, ht⟩ := clearing_trace
  have hm : Event.tx deployed.dispCh 0 .ok ∈ windowEvents deployed .dot (List.replicate 20 0) (List.replicate 21 .ok) := by
    simp [windowEvents, txEvents]
  obtain ⟨pre, post, hs⟩ := List.append_of_mem hm
  exact ⟨t, _, clearing_inv, h, ht, ⟨pre, deployed.dispCh, 0, .ok, post, hs⟩, fun _ => List.cons_ne_nil _ _ ∘ Eq.symm⟩

theorem witness_TraceIsOnlyAppendedTo :
    ∃ t, step clearing = .next t ∧ ∀ rest, clearing.inputs ≠ ⟨0, .reset⟩ :: rest := by
  obtain ⟨t, h, -⟩ := clearing_trace
  exact ⟨t, h, fun _ => List.cons_ne_nil _ _ ∘ Eq.symm⟩

/-- Also the hypotheses of the first clause of `FlagsAgreeWithTheLog`, of `OnlyConfigureAndInitWriteTheTransport`,
`OnlySeldivWritesTheResult` and `EveryOperationCompletes`. -/
theorem witness_EveryOperationEndsWithTheWindowClosed :
    State.reset.inputs = [] ∧ State.reset.stale = [] ∧ State.reset.ph = .idle ∧ State.reset.ce = 1 ∧
      (∃ t, exec .clear State.reset = .next t) ∧ (∀ ch pp, Instr.clear ≠ .configure ch pp) ∧
      (∀ pp, Instr.clear ≠ .init pp) ∧ (∀ bus target, Instr.clear ≠ .seldiv bus target) :=
  ⟨rfl, rfl, rfl, rfl, ⟨_, rfl⟩, by simp, by simp, by simp⟩

/-- The four cases of R101 at their boundaries, in the deployment's table (V9, V10, V5, P2) and a table of one. -/
theorem witness_SelectionFollowsTheAlgorithm :
    [2, 4, 8, 16, 32, 64, 128, 256].Pairwise (· < ·) ∧
      selDiv [2, 4, 8, 16, 32, 64, 128, 256] 42000000 328125 = (6, .none) ∧
      selDiv [2, 4, 8, 16, 32, 64, 128, 256] 42000000 325000 = (7, .low) ∧
      selDiv [2, 4, 8, 16, 32, 64, 128, 256] 16000000 8000000 = (0, .high) ∧
      selDiv [2, 4, 8, 16, 32, 64, 128, 256] 42000000 14000000 = (1, .none) ∧ selDiv [7] 56 7 = (0, .low) := by
  decide

/-- R106: no warning (V3), the clamp with `want` in reach (V19), exact and inexact quotients (V3, V18). -/
theorem witness_SelectedDivisorIsTightest :
    selDiv [2, 4, 8, 16, 32, 64, 128, 256] 42000000 10500000 = (1, .none) ∧
      selDiv [2, 4, 8, 16, 32, 64, 128, 256] 42000000 164062 = (7, .low) ∧ 42000000 / 164062 = 256 ∧
      42000000 % 10500000 = 0 ∧ selDiv [2, 4, 8, 16, 32, 64, 128, 256] 42000000 8400001 = (1, .none) ∧
      42000000 / 8400001 = 4 ∧ 42000000 % 8400001 ≠ 0 := by decide

theorem witness_SeldivResult :
    State.reset.inputs = [] ∧ (1 : Word) ≠ 0 ∧ (0xFFFFFFFF : Word) ≠ 0 := by decide

/-- The greatest legal code, the least illegal one, and a word for each of the four settings. -/
theorem witness_PolarityPhaseMap :
    (3 : Word).toNat < 4 ∧ 4 ≤ (4 : Word).toNat ∧ ppMap 0 = some (cfgCpha 0x0014, cfgCpol 0x0014) ∧
      ppMap 1 = some (cfgCpha 0x0016, cfgCpol 0x0016) ∧ ppMap 2 = some (cfgCpha 0x0017, cfgCpol 0x0017) ∧
      ppMap 3 = some (cfgCpha 0x0015, cfgCpol 0x0015) := by decide

/-- Channel 0 exists, and its transport init answers ok, or fail. -/
theorem witness_ConfigureCommits :
    (ready [.ok]).inputs = [] ∧ Sparse.wf (ready [.ok]).clken = true ∧ Sparse.wf (ready [.ok]).tcfg = true ∧
      (0 : Word).toNat < deployed.nCh ∧ nextAnswer deployed (ready [.ok]) = .ok ∧
      nextAnswer deployed (ready [.fail]) = .fail := by
  refine ⟨rfl, rfl, Sparse.write_wf _ _ _ rfl, ?_, rfl, rfl⟩
  simp [deployed]

/-- The first number that names no channel. -/
theorem witness_ConfigureRefusesUnknownChannel :
    deployed.nCh ≤ (BitVec.ofNat 32 deployed.nCh).toNat := by
  have h : Config.nChFree % 256 < 256 := Nat.mod_lt _ (by decide)
  have hn : deployed.nCh < 2 ^ 32 := by simp only [deployed]; omega
  rw [BitVec.toNat_ofNat, Nat.mod_eq_of_lt hn]

/-- Channel 0 configured with code 3, its gate on. -/
def configuredAgain : State :=
  { State.reset with
    clken := [(0, 1)], tcfg := Sparse.write [] 0 (stagedCfg deployed 0 3 ||| 0x0200), answers := [.ok] }

theorem witness_ConfiguringAgainChangesNothing :
    configuredAgain.inputs = [] ∧ Sparse.wf configuredAgain.clken = true ∧
      Sparse.wf configuredAgain.tcfg = true ∧ nextAnswer deployed configuredAgain = .ok ∧
      Sparse.read configuredAgain.clken 0 = 1 ∧
      Sparse.read configuredAgain.tcfg 0 = stagedCfg deployed 0 3 ||| 0x0200 :=
  ⟨rfl, rfl, Sparse.write_wf _ _ _ rfl, rfl, rfl, Sparse.read_write_same [] _ _ rfl⟩

/-- Also `WrctlWritesOneControlByte` and `ClearWritesTwentyZeroBytes`. A code with no glyph exists unless the
table has all 256 (its size is OPEN, R3). -/
theorem witness_WrglyphWritesTheFrame :
    (ready []).inputs = [] ∧ channelValid (ready []) deployed.dispCh = true ∧
      (∀ c ∈ [32, 32, 32, (32 : Byte)], c.toNat < deployed.glyphCount) ∧
      (deployed.glyphCount ≤ 255 → ∃ c ∈ [32, 32, 32, (255 : Byte)], deployed.glyphCount ≤ c.toNat) := by
  refine ⟨rfl, ready_valid _, ?_, fun h => ⟨255, by simp, h⟩⟩
  simp only [List.mem_cons, List.not_mem_nil, or_false, or_self, forall_eq]
  exact space_has_glyph

theorem witness_UnconfiguredDisplayIsNotWritten : channelValid State.reset deployed.dispCh = false := by
  simp [channelValid, State.reset, Sparse.read, Sparse.unlisted]
  decide

/-- Also `WindowLeastTime`; the second of two answers is fail. -/
theorem witness_FailedTransmitsDoNotStopAWindow :
    (ready [.ok, .fail]).inputs = [] ∧ answersAhead deployed 2 (ready [.ok, .fail]) = [.ok, .fail] := ⟨rfl, rfl⟩

/-- The second clause of `FlagsAgreeWithTheLog`: a paused operation that warns. -/
theorem witness_FlagsAgreeWithTheLog :
    inputDue { State.reset with busy := true, todo := [.warn .low] } = false ∧
      ∃ t, step { State.reset with busy := true, todo := [.warn .low] } = .next t ∧ t.warnLow = true :=
  ⟨rfl, _, rfl, rfl⟩

/-- 24 fixed answers; also `InitLeastTime`, and, with the first answer fail, the second statement's. -/
theorem witness_InitRunsItsFiveSteps :
    (ready (List.replicate 24 .ok)).inputs = [] ∧ nextAnswer deployed (ready (List.replicate 24 .ok)) = .ok ∧
      nextAnswer deployed (ready [.fail]) = .fail ∧ (3 : Word).toNat < 4 ∧ 4 ≤ (4 : Word).toNat ∧
      (∀ answers, Sparse.wf (ready answers).tcfg = true ∧ Sparse.wf (ready answers).clken = true) :=
  ⟨rfl, rfl, rfl, by decide, by decide, fun _ => ⟨Sparse.write_wf _ _ _ rfl, rfl⟩⟩

/-- A terminator at the last address, and none before the end. -/
theorem witness_StringLengthIsTheFirstTerminator :
    strLen [(254, 1)] 255 = some 0 ∧ strLen [(254, 1)] 254 = some 1 ∧ strLen [(255, 1)] 255 = none := by decide

/-- The empty string, the longest short one, the shortest long one, and one with a pause. -/
theorem witness_ScrollWritesItsFrames :
    (∀ n ∈ [0, 3, 4, 5], strLen (textTo n) 0 = some n ∧
      ∀ k, k < n → (Memory.read (textTo n) k).toNat < 33) ∧ 33 ≤ deployed.glyphCount ∧
      ({ ready [] with txt := textTo 5 } : State).stale = [] := by
  refine ⟨by decide, ?_, rfl⟩
  simp [deployed]

theorem witness_ScrollRefusals :
    strLen [(255, 1)] 255 = none ∧ strLen [(0, 255)] 0 = some 1 ∧
      (deployed.glyphCount ≤ 255 → deployed.glyphCount ≤ (Memory.read [(0, 255)] 0).toNat) :=
  ⟨by decide, by decide, id⟩

/-- The same strings: one frame up to four characters, then one more for each. -/
theorem witness_ScrollFramesAndPauses :
    (1 = max 1 (0 - 3) ∧ 1 = max 1 (3 - 3) ∧ 1 = max 1 (4 - 3) ∧ 2 = max 1 (5 - 3)) ∧
      ∀ st ∈ answersAhead deployed (21 * 2) (ready (List.replicate 42 .ok)), st = .ok := by
  refine ⟨by decide, ?_⟩
  rw [show answersAhead deployed (21 * 2) (ready (List.replicate 42 .ok)) = List.replicate 42 .ok from rfl]
  simp

/-- One of the two clauses applies to every operand; which, depends on the OPEN size of the glyph table. -/
theorem witness_RenderingsWriteOneFrame :
    (ready []).inputs = [] ∧ channelValid (ready []) deployed.dispCh = true ∧
      fmtInt (42 : Word).toInt = ⟨48, 48, 52, 50⟩ ∧
      (52 < deployed.glyphCount → ∀ c ∈ [48, 48, 52, (50 : Byte)], c.toNat < deployed.glyphCount) ∧
      (deployed.glyphCount ≤ 52 → ∃ c ∈ [48, 48, 52, (50 : Byte)], deployed.glyphCount ≤ c.toNat) := by
  refine ⟨rfl, ready_valid _, by decide, fun h => ?_, fun h => ⟨52, by simp, h⟩⟩
  simp only [List.mem_cons, List.not_mem_nil, or_false, forall_eq_or_imp, forall_eq]
  refine ⟨?_, ?_, h, ?_⟩ <;> exact lt_of_le_of_lt (by decide) h

/-- `BUSY` at both values. -/
theorem witness_HostWriteOfText :
    Memory.wf State.reset.txt = true ∧
      ∃ t u, step { State.reset with inputs := [⟨0, .writeTxt 255 1⟩] } = .next t ∧
        step { State.reset with busy := true, inputs := [⟨0, .writeTxt 255 1⟩] } = .next u ∧
        t.stale = [] ∧ u.stale = [(255, 0)] := ⟨rfl, _, _, rfl, rfl, rfl, rfl⟩

/-- The second case: the write lands after one action, and the operation is still running. -/
theorem witness_TextWriteDisturbsOnlyScroll :
    (∀ base, Instr.init 0 ≠ .scroll base) ∧ ({ State.reset with busy := true } : State).todo = [] ∧
      ∃ t, exec (.init 0) { State.reset with busy := true, inputs := [⟨1, .writeTxt 255 1⟩] } = .next t ∧
        t.busy = true := ⟨by simp, rfl, _, rfl, rfl⟩

theorem witness_ChangedTextReadsOldOrNew : (∀ e ∈ State.reset.stale, e.1 ≠ 0) := by simp [State.reset]

/-- A `SCROLL` paused before a frame of `n` characters of one code, such as 255 or a space. -/
def paused (v : Byte) (n : Nat) : State :=
  { State.reset with busy := true, todo := [.loadText 0 n], txt := [(0, v), (1, v), (2, v), (3, v)] }

theorem witness_ChangedTextPastTheTableFaults :
    (∀ v n, inputDue (paused v n) = false ∧ (paused v n).busy = true ∧ (paused v n).todo = [.loadText 0 n]) ∧
      (deployed.glyphCount ≤ 255 → ∀ v ∈ heldBytes (paused 255 1) 0, deployed.glyphCount ≤ v.toNat) ∧
      (∀ n k, k < 4 → ∀ v ∈ heldBytes (paused 32 n) k, v.toNat < deployed.glyphCount) := by
  refine ⟨fun _ _ => ⟨rfl, rfl, rfl⟩, fun h v hv => ?_, fun n k hk v hv => ?_⟩
  · simp only [heldBytes, paused, State.reset, Memory.read, Sparse.read, List.filter_nil, List.map_nil,
      List.mem_singleton] at hv
    subst hv
    exact h
  · have h32 : v = 32 := by
      interval_cases k <;>
        simpa [heldBytes, paused, State.reset, Memory.read, Sparse.read] using hv
    subst h32
    exact space_has_glyph

/-- Both clock phases. -/
theorem witness_WaveformCarriesTheByte :
    cfgLsbf 0x0217 = 0 ∧ cfgW16 0x0217 = 0 ∧ cfgCpha 0x0217 = 1 ∧ cfgLsbf 0x0214 = 0 ∧ cfgW16 0x0214 = 0 ∧
      cfgCpha 0x0214 = 0 := by decide

theorem witness_DeviceHoldsWhatWasWritten :
    (ready (List.replicate 21 .ok)).inputs = [] ∧
      channelValid (ready (List.replicate 21 .ok)) deployed.dispCh = true ∧
      ((ready (List.replicate 21 .ok)).shadow deployed).Quiet ∧
      (∀ st ∈ answersAhead deployed 2 (ready (List.replicate 21 .ok)), st = .ok) ∧
      ∀ st ∈ answersAhead deployed 21 (ready (List.replicate 21 .ok)), st = .ok := by
  refine ⟨rfl, ready_valid _, ⟨rfl, rfl, rfl⟩, ?_, ?_⟩
  · rw [show answersAhead deployed 2 (ready (List.replicate 21 .ok)) = List.replicate 2 .ok from rfl]
    simp
  rw [show answersAhead deployed 21 (ready (List.replicate 21 .ok)) = List.replicate 21 .ok from rfl]
  simp

theorem witness_EveryOperationKeepsTheProtocol :
    State.reset.inputs = [] ∧ (State.reset.shadow deployed).Quiet ∧ ∃ t, exec (.init 7) State.reset = .next t :=
  ⟨rfl, ⟨rfl, rfl, rfl⟩, _, rfl⟩

end Sys2Proof.Tests
end

/-! ### Operations as plans, and whose turn a step is -/

namespace Sys2Proof.Machine

/-- What an operation is before it runs: the error its checks raise, or its actions (R208). -/
def planOf (p : Params) (i : Instr) (s : State) : Except Err (List Action) :=
  match i with
  | .seldiv bus target => planSeldiv p bus target
  | .configure ch pp => planConfigure p ch pp
  | .wrctl pwm peak sleep => planWrctl p pwm peak sleep s
  | .wrglyph c0 c1 c2 c3 => planGlyphs p ⟨c0, c1, c2, c3⟩ s
  | .clear => planClear p s
  | .init pp => .ok (initScript p pp)
  | .scroll base => planScroll p base s
  | .renderInt n => planGlyphs p (fmtInt n.toInt) s
  | .renderFloat bits => planGlyphs p (p.fmtFloat bits) s
  | .renderErr code => planGlyphs p (p.fmtErr code) s

/-- The scripts an operation can run, with what its checks have established. -/
inductive Scripted (p : Params) (s : State) : Instr → List Action → Prop where
  | seldiv (bus target : Word) (w : Warn) (k : Nat) : Scripted p s (.seldiv bus target) [.warn w, .setRes k]
  | configure (ch pp : Word) : Scripted p s (.configure ch pp) (configureScript p ch.toNat pp)
  | init (pp : Word) : Scripted p s (.init pp) (initScript p pp)
  | control (pwm peak : Byte) (sleep : BitVec 1) (hv : channelValid s p.dispCh = true) :
    Scripted p s (.wrctl pwm peak sleep) (controlWindow p (controlByte pwm peak sleep))
  | clear (hv : channelValid s p.dispCh = true) : Scripted p s .clear (clearWindow p)
  | glyphs (i : Instr) (f : Four) (hv : channelValid s p.dispCh = true)
    (hs : ∀ bus target, i ≠ .seldiv bus target) : Scripted p s i (.loadChars f :: frameWindow p)
  | scroll (base : BitVec 8) (n : Nat) (hv : channelValid s p.dispCh = true)
    (hg : stringHasGlyphs p s.txt base.toNat n = true) :
    Scripted p s (.scroll base) (scrollScript p base.toNat n)

/-- The checks of `WriteGlyphs` (R151, R208). -/
theorem planGlyphs_cases (p : Params) (f : Four) (s : State) :
    (∃ e k, planGlyphs p f s = .error e ∧ e.logKind = some k) ∨
      (planGlyphs p f s = .ok (.loadChars f :: frameWindow p) ∧ channelValid s p.dispCh = true) := by
  unfold planGlyphs
  split
  · exact .inl ⟨_, _, rfl, rfl⟩
  · split
    · exact .inl ⟨_, _, rfl, rfl⟩
    · exact .inr ⟨rfl, by simp_all⟩

/-- An operation's checks raise a proper error or let one of its scripts run. -/
theorem planOf_cases (p : Params) (i : Instr) (s : State) :
    (∃ e k, planOf p i s = .error e ∧ e.logKind = some k) ∨
      ∃ script, planOf p i s = .ok script ∧ Scripted p s i script := by
  have glyphs (f : Four) (j : Instr) (hs : ∀ bus target, j ≠ .seldiv bus target) :
      (∃ e k, planGlyphs p f s = .error e ∧ e.logKind = some k) ∨
        ∃ script, planGlyphs p f s = .ok script ∧ Scripted p s j script :=
    (planGlyphs_cases p f s).imp_right fun ⟨h, hv⟩ => ⟨_, h, .glyphs j f hv hs⟩
  cases i with
  | seldiv bus target =>
    simp only [planOf, planSeldiv]
    split
    · exact .inl ⟨_, _, rfl, rfl⟩
    · exact .inr ⟨_, rfl, .seldiv ..⟩
  | configure ch pp =>
    simp only [planOf, planConfigure]
    split
    · exact .inl ⟨_, _, rfl, rfl⟩
    · exact .inr ⟨_, rfl, .configure ..⟩
  | wrctl pwm peak sleep =>
    simp only [planOf, planWrctl]
    split
    · exact .inl ⟨_, _, rfl, rfl⟩
    · exact .inr ⟨_, rfl, .control _ _ _ (by simp_all)⟩
  | wrglyph c0 c1 c2 c3 => exact glyphs _ _ nofun
  | clear =>
    simp only [planOf, planClear]
    split
    · exact .inl ⟨_, _, rfl, rfl⟩
    · exact .inr ⟨_, rfl, .clear (by simp_all)⟩
  | init pp => exact .inr ⟨_, rfl, .init pp⟩
  | scroll base =>
    simp only [planOf, planScroll]
    split
    · exact .inl ⟨_, _, rfl, rfl⟩
    · split
      · exact .inl ⟨_, _, rfl, rfl⟩
      · split
        · exact .inl ⟨_, _, rfl, rfl⟩
        · exact .inr ⟨_, rfl, .scroll _ _ (by simp_all) (by simp_all)⟩
  | renderInt n => exact glyphs _ _ nofun
  | renderFloat bits => exact glyphs _ _ nofun
  | renderErr code => exact glyphs _ _ nofun

theorem loadText_notMem_window (p : Params) (sp : Space) (data : List Datum) (a n : Nat) :
    Action.loadText a n ∉ window p sp data :=
  fun h => (window_plain h).2.2 a n rfl

/-- Only `SCROLL` reads text. -/
theorem Scripted.loadText_notMem {p : Params} {s : State} {i : Instr} {script : List Action}
    (h : Scripted p s i script) (hs : ∀ base, i ≠ .scroll base) (a n : Nat) : Action.loadText a n ∉ script := by
  have hw := loadText_notMem_window p
  cases h with
  | seldiv => simp
  | configure => simp [configureScript]
  | init => simp [initScript, configureScript, clearWindow, controlWindow, hw]
  | control => exact hw _ _ a n
  | clear => exact hw _ _ a n
  | glyphs => simp [frameWindow, hw]
  | scroll base => exact absurd rfl (hs base)

/-- Only `CONFIGURE` and `INIT` have actions that write a transport register (R21). -/
theorem Scripted.writesTransport {p : Params} {s : State} {i : Instr} {script : List Action}
    (h : Scripted p s i script) (hconf : ∀ ch pp, i ≠ .configure ch pp) (hinit : ∀ pp, i ≠ .init pp) :
    ∀ a ∈ script, a.writesTransport = false := by
  have hwindow {sp data} : ∀ a ∈ window p sp data, a.writesTransport = false := fun a ha => (window_plain ha).1
  cases h with
  | seldiv => simp [Action.writesTransport]
  | configure ch pp => exact absurd rfl (hconf ch pp)
  | init pp => exact absurd rfl (hinit pp)
  | control => exact hwindow
  | clear => exact hwindow
  | glyphs => exact List.forall_mem_cons.2 ⟨rfl, hwindow⟩
  | scroll => exact fun a ha => (scrollScript_plain ha).1

/-- Only `SELDIV` has the action that writes `RES` (R16). -/
theorem Scripted.writesResult {p : Params} {s : State} {i : Instr} {script : List Action}
    (h : Scripted p s i script) (hsel : ∀ bus target, i ≠ .seldiv bus target) :
    ∀ a ∈ script, a.writesResult = false := by
  have hwindow {sp data} : ∀ a ∈ window p sp data, a.writesResult = false := fun a ha => (window_plain ha).2.1
  cases h with
  | seldiv bus target => exact absurd rfl (hsel bus target)
  | configure => simp [configureScript, Action.writesResult]
  | init => simpa [initScript, configureScript, Action.writesResult, or_imp, forall_and] using ⟨hwindow, hwindow⟩
  | control => exact hwindow
  | clear => exact hwindow
  | glyphs => exact List.forall_mem_cons.2 ⟨rfl, hwindow⟩
  | scroll => exact fun a ha => (scrollScript_plain ha).2

/-- An operation that reads no text cannot fault. -/
theorem perform_planOf_never_breaks (p : Params) (i : Instr) (s : State) (hs : ∀ base, i ≠ .scroll base) :
    (perform p (planOf p i s) s).2 = none := by
  rcases planOf_cases p i s with ⟨e, k, h, -⟩ | ⟨script, h, hscr⟩ <;> rw [h]
  · rfl
  · exact runScript_never_breaks p script s (hscr.loadText_notMem hs)

/-- Every operation is its plan performed, its fault included. -/
theorem exec_eq_perform (i : Instr) (s : State) :
    exec i s = runOutcome (perform deployed (planOf deployed i s) s) := by
  have total (hs : ∀ base, i ≠ .scroll base) :
      runOutcome (perform deployed (planOf deployed i s) s) = .next (perform deployed (planOf deployed i s) s).1 :=
    runOutcome_next.2 ⟨perform_planOf_never_breaks deployed i s hs, rfl⟩
  cases i with
  | scroll base => rfl
  | _ => exact (total (by simp)).symm

/-- What an operation's next state is: that of its refusal, or of its script's run. -/
theorem exec_next_cases {i : Instr} {s t : State} (h : exec i s = .next t) :
    (∃ e k, e.logKind = some k ∧ t = raise deployed e s) ∨
      ∃ script, Scripted deployed s i script ∧ runScript deployed script s = (t, none) := by
  rw [exec_eq_perform, runOutcome_next] at h
  rcases planOf_cases deployed i s with ⟨e, k, hp, hk⟩ | ⟨script, hp, hscr⟩ <;> rw [hp] at h
  · exact .inl ⟨e, k, hk, h.2.symm⟩
  · exact .inr ⟨script, hscr, Prod.ext h.2 h.1⟩

/-- The turns a step can be, each with the state it leads to. -/
inductive Turn (s t : State) : Prop where
  /-- A due input of the host lands. -/
  | lands (act : HostAct) (rest : List HostInput) (hin : s.inputs = ⟨0, act⟩ :: rest)
    (ht : t = landInput deployed act { s with inputs := rest })
  /-- The running operation goes on (R12, R13). -/
  | resumes (hdue : inputDue s = false) (hb : s.busy = true)
    (ht : runScript deployed s.todo { s with todo := [] } = (t, none))
  /-- A command is accepted and run (R70). -/
  | runs (cw : CmdWord) (rest : List CmdWord) (i : Instr) (hb : s.busy = false) (hp : s.port = cw :: rest)
    (ht : exec i (accept cw { s with port := rest }) = .next t)
  /-- A reserved opcode is reported (R78). -/
  | reports (cw : CmdWord) (rest : List CmdWord) (hb : s.busy = false) (hp : s.port = cw :: rest)
    (ht : t = illegalCommand (accept cw { s with port := rest }))
  /-- The block waits (R240). -/
  | waits (hb : s.busy = false) (hp : s.port = []) (ht : t = passTime s)

/-- What one step can do. -/
theorem turn_of_step {s t : State} (h : step s = .next t) : Turn s t := by
  cases hdue : inputDue s with
  | true =>
    obtain ⟨act, rest, hin⟩ : ∃ act rest, s.inputs = ⟨0, act⟩ :: rest := by
      unfold inputDue at hdue
      split at hdue
      · exact ⟨_, _, ‹_›⟩
      · cases hdue
    rw [step_of_due hin] at h
    cases h
    exact .lands act rest hin rfl
  | false =>
    cases hb : s.busy with
    | true =>
      rw [step_of_busy hdue hb, runOutcome_next] at h
      exact .resumes hdue hb (Prod.ext h.2 h.1)
    | false =>
      cases hp : s.port with
      | nil =>
        rw [step_of_not_due hdue] at h
        simp only [takeTurn, hb, hp, Bool.false_eq_true, if_false] at h
        cases h
        exact .waits hb hp rfl
      | cons cw rest =>
        rw [step_of_command hdue hb hp, runCommand] at h
        split at h
        · exact .runs cw rest _ hb hp h
        · cases h
          exact .reports cw rest hb hp rfl

/-! ### The step and its frames, the reset values, the layouts -/

/-- Settles O4: the step's turn is the command's, and a decoded word runs its operation. -/
theorem stepRunsTheDecodedCommand : Obligations.StepRunsTheDecodedCommand := by
  intro s cw rest i hdue hb hp hdec
  rw [step_of_command hdue hb hp, runCommand, hdec]
  rfl

/-- Settles O6: the running operation's turn, and the frame of every run. -/
theorem runningOperationHoldsOffCommands : Obligations.RunningOperationHoldsOffCommands := by
  intro s hdue hb
  refine ⟨step_of_busy hdue hb, fun t h => ?_⟩
  rw [step_of_busy hdue hb, runOutcome_next] at h
  obtain ⟨-, rfl⟩ := h
  obtain ⟨hop, ha, hb', -, hport, -, -⟩ := runScript_frame deployed s.todo { s with todo := [] }
  exact ⟨hport, hop, ha, hb'⟩

/-- Settles O13: of each turn but the reset input's. -/
theorem traceIsOnlyAppendedTo : Obligations.TraceIsOnlyAppendedTo := by
  intro s t h hreset
  cases turn_of_step h with
  | lands act rest hin ht =>
    cases act with
    | reset => exact absurd hin (hreset rest)
    | writeTxt a v => exact ⟨[], by simp [ht, landInput, hostWrite]⟩
  | resumes hdue hb ht =>
    have hf := runScript_frame deployed s.todo { s with todo := [] }
    rw [ht] at hf
    exact hf.trace
  | runs cw rest i hb hp ht =>
    have hf := perform_frame deployed (planOf deployed i (accept cw { s with port := rest }))
      (accept cw { s with port := rest })
    rw [exec_eq_perform, runOutcome_next] at ht
    rw [ht.2] at hf
    exact hf.trace
  | reports cw rest hb hp ht => exact ⟨Err.illegalCommand.logEvents, by simp [ht, illegalCommand]⟩
  | waits hb hp ht => exact ⟨[], by rw [ht, passTime_eq]; simp⟩

/-- Settles O17: no other operation has an action that writes a transport register. -/
theorem onlyConfigureAndInitWriteTheTransport : Obligations.OnlyConfigureAndInitWriteTheTransport := by
  intro i s t hconf hinit h
  rcases exec_next_cases h with ⟨e, k, -, rfl⟩ | ⟨script, hscr, hrun⟩
  · exact ⟨rfl, rfl⟩
  · have ht := runScript_transport deployed script (hscr.writesTransport hconf hinit) s
    rwa [hrun] at ht

/-- Settles O18: no other operation has the action that writes `RES`. -/
theorem onlySeldivWritesTheResult : Obligations.OnlySeldivWritesTheResult := by
  intro i s t hsel h
  rcases exec_next_cases h with ⟨e, k, -, rfl⟩ | ⟨script, hscr, hrun⟩
  · rfl
  · have ht := runScript_result deployed script (hscr.writesResult hsel) s
    rwa [hrun] at ht

/-- Settles O8: the reset state, field by field. -/
theorem resetLeavesTheStatedValues : Obligations.ResetLeavesTheStatedValues :=
  ⟨rfl, rfl, rfl, rfl, rfl, rfl, rfl, by decide, fun _ => rfl, fun _ => rfl, rfl, rfl, rfl⟩

/-- Settles O20: the tables of R13 and R200. -/
theorem phaseAndErrorCodes : Obligations.PhaseAndErrorCodes := by
  unfold Obligations.PhaseAndErrorCodes
  decide

/-- Settles O19: the fields of `STAT` lie side by side. -/
theorem statusWordLayout : Obligations.StatusWordLayout := by
  intro s
  unfold State.stat
  generalize bit s.busy = busy
  generalize bit s.warnLow = low
  generalize bit s.warnHigh = high
  generalize bit s.txf = txf
  generalize s.err.code = err
  revert busy low high txf err
  decide

end Sys2Proof.Machine

/-! ### What one action emits, flags and keeps -/

namespace Sys2Proof.Machine

/-- The events of one action, its log entry included (C14). -/
def actionEvents (p : Params) (a : Action) (s : State) : List Event :=
  match a with
  | .gpioCfg => [.gpioCfg]
  | .gate ch => if Sparse.read s.clken ch = 0 then [.clkGate ch] else []
  | .warn w => w.logEvents
  | .tinit ch cfg => [.tinit ch cfg (nextAnswer p s)]
  | .selectSpace sp => [.pin .rs (spaceLevel p sp)]
  | .delayUs n => [.delayUs n]
  | .delayMs n => [.delayMs n]
  | .openWindow => [.pin .ce 0]
  | .send _ d => .tx p.dispCh (datumByte p d s) (nextAnswer p s) :: statusEvents (nextAnswer p s)
  | .closeWindow => [.pin .ce 1]
  | .dummy => .tx p.dispCh 0 (nextAnswer p s) :: statusEvents (nextAnswer p s)
  | .driveRst v => [.pin .rst v]
  | .checkPolarity _ | .setRes _ | .startData | .loadChars _ | .setLen _ | .setWin _ | .loadText _ _ => []

/-- A part of a run that raises no error: its events `es`, with the flags of `STAT` set exactly as the log
entries among them say (R17, R201, R205). -/
structure LogsFlags (s t : State) (es : List Event) : Prop where
  trace : t.trace = s.trace ++ es
  warnLow : t.warnLow = (s.warnLow || decide (Event.log .wDivLow ∈ es))
  warnHigh : t.warnHigh = (s.warnHigh || decide (Event.log .wDivHigh ∈ es))
  txf : t.txf = (s.txf || decide (Event.log .eTxFailed ∈ es))
  err : t.err = s.err
  noError : ∀ e k, Err.logKind e = some k → Event.log k ∉ es

/-- What no action touches: the control of the run and the host's pending inputs. -/
structure KeepsControl (s t : State) : Prop where
  busy : t.busy = s.busy
  todo : t.todo = s.todo
  inputs : t.inputs = s.inputs
  stale : t.stale = s.stale

/-- No error has the log kind of a warning or of a failed transmit (R200). -/
theorem logKind_error {e : Err} {k : LogKind} (h : e.logKind = some k) :
    k ≠ .wDivLow ∧ k ≠ .wDivHigh ∧ k ≠ .eTxFailed := by
  cases e <;> simp [Err.logKind] at h <;> subst h <;> decide

/-- Errors with one log kind are one error (R200). -/
theorem logKind_injective {e f : Err} {k : LogKind} (he : e.logKind = some k) (hf : f.logKind = some k) : e = f := by
  have h : e.logKind = f.logKind := he.trans hf.symm
  clear he hf
  revert h
  cases e <;> cases f <;> decide

theorem Err.logEvents_eq {e : Err} {k : LogKind} (h : e.logKind = some k) : e.logEvents = [.log k] := by
  simp [Err.logEvents, h]

/-- A part of a run with no log entry among its events and the flags as they were. -/
theorem LogsFlags.of_noLog {s t : State} {es : List Event} (trace : t.trace = s.trace ++ es)
    (noLog : ∀ k, Event.log k ∉ es) (warnLow : t.warnLow = s.warnLow) (warnHigh : t.warnHigh = s.warnHigh)
    (txf : t.txf = s.txf) (err : t.err = s.err) : LogsFlags s t es :=
  ⟨trace, by simp [warnLow, noLog], by simp [warnHigh, noLog], by simp [txf, noLog], err, fun _ k _ => noLog k⟩

theorem LogsFlags.trans {s t u : State} {es fs : List Event} (h : LogsFlags s t es) (g : LogsFlags t u fs) :
    LogsFlags s u (es ++ fs) where
  trace := by rw [g.trace, h.trace, List.append_assoc]
  warnLow := by rw [g.warnLow, h.warnLow]; simp [Bool.or_assoc]
  warnHigh := by rw [g.warnHigh, h.warnHigh]; simp [Bool.or_assoc]
  txf := by rw [g.txf, h.txf]; simp [Bool.or_assoc]
  err := g.err.trans h.err
  noError e k hk hm := (List.mem_append.1 hm).elim (h.noError e k hk) (g.noError e k hk)

/-- A warning sets its flag and logs it (R201). -/
theorem noteWarning_logsFlags (w : Warn) (s : State) : LogsFlags s (noteWarning w s) w.logEvents where
  trace := by rw [noteWarning_eq]
  warnLow := by rw [noteWarning_eq]; cases w <;> simp [Warn.logEvents]
  warnHigh := by rw [noteWarning_eq]; cases w <;> simp [Warn.logEvents]
  txf := by rw [noteWarning_eq]; cases w <;> simp [Warn.logEvents]
  err := by rw [noteWarning_eq]
  noError e k hk := by
    obtain ⟨hlow, hhigh, -⟩ := logKind_error hk
    cases w <;> simp [Warn.logEvents, hlow, hhigh]

/-- A failed transmit sets `TXF` and logs it (R148). -/
theorem transmitDisplay_logsFlags (p : Params) (b : Byte) (s : State) :
    LogsFlags s (transmitDisplay p b s)
      (.tx p.dispCh b (nextAnswer p s) :: statusEvents (nextAnswer p s)) where
  trace := by simp [transmitDisplay_eq]
  warnLow := by cases nextAnswer p s <;> simp [statusEvents]
  warnHigh := by cases nextAnswer p s <;> simp [statusEvents]
  txf := by simp only [transmitDisplay_eq]; cases nextAnswer p s <;> simp [statusEvents]
  err := by simp
  noError e k hk := by
    obtain ⟨-, -, htx⟩ := logKind_error hk
    cases nextAnswer p s <;> simp [statusEvents, htx]

/-- Which actions raise an error, and where that leaves the state (R124, R125). -/
theorem doAction_raises {p : Params} {a : Action} {s t : State} {e : Err} (h : doAction p a s = .raises e t) :
    (∃ pp, a = .checkPolarity pp ∧ e = .invalidPolarity ∧ t = s) ∨
      ∃ ch cfg, a = .tinit ch cfg ∧ e = .transportInitFailed ∧
        t = spoilCfg p ch (emit (.tinit ch cfg .fail) (useAnswer s)) := by
  cases a with
  | checkPolarity pp =>
    simp only [doAction] at h
    split at h <;> cases h
    exact .inl ⟨pp, rfl, rfl, rfl⟩
  | tinit ch cfg =>
    simp only [doAction, transportInit] at h
    split at h <;> cases h
    exact .inr ⟨ch, cfg, rfl, rfl, by simp [*]⟩
  | loadText addr n =>
    simp only [doAction, loadFrame] at h
    split at h <;> cases h
  | _ => cases h

/-- What a transport init leaves, whatever its answer, but for the channel's configuration (R120, R125). -/
theorem transportInit_reaches {p : Params} {ch : Nat} {cfg : BitVec 16} {s t : State}
    (h : (transportInit p ch cfg s).Reaches t) :
    t = { useAnswer s with
      trace := s.trace ++ [.tinit ch cfg (nextAnswer p s)]
      tcfg := t.tcfg
      fresh := t.fresh } := by
  unfold transportInit at h
  split at h <;> simp only [ActionResult.Reaches] at h <;> subst h <;>
    simp [commitCfg, spoilCfg, emit, useAnswer_eq, *]

/-- An action emits its events, sets the flags they log, and leaves the control of the run alone. -/
theorem doAction_effect {p : Params} {a : Action} {s t : State} (h : (doAction p a s).Reaches t) :
    LogsFlags s t (actionEvents p a s) ∧ KeepsControl s t := by
  cases a <;> simp only [doAction] at h
  case loadText addr n =>
    rw [loadFrame_reaches h]
    exact ⟨.of_noLog (by simp [actionEvents]) (by simp [actionEvents]) rfl rfl rfl rfl, ⟨rfl, rfl, rfl, rfl⟩⟩
  case checkPolarity pp =>
    have ht : t = s := by split at h <;> exact h
    subst ht
    exact ⟨.of_noLog (by simp [actionEvents]) (by simp [actionEvents]) rfl rfl rfl rfl, ⟨rfl, rfl, rfl, rfl⟩⟩
  case tinit ch cfg =>
    rw [transportInit_reaches h]
    exact ⟨.of_noLog rfl (by simp [actionEvents]) (by simp) (by simp) (by simp) (by simp),
      ⟨by simp, by simp, by simp, by simp⟩⟩
  all_goals
    simp only [ActionResult.Reaches] at h
    subst h
  case gate ch =>
    have noLog (k : LogKind) : Event.log k ∉ actionEvents p (.gate ch) s := by
      simp only [actionEvents]
      split <;> simp
    unfold enableGate
    split
    · exact ⟨.of_noLog (by simp [actionEvents, *]) noLog rfl rfl rfl rfl, ⟨rfl, rfl, rfl, rfl⟩⟩
    · exact ⟨.of_noLog (by simp_all [actionEvents]) noLog rfl rfl rfl rfl, ⟨rfl, rfl, rfl, rfl⟩⟩
  case warn w =>
    refine ⟨noteWarning_logsFlags w s, ?_⟩
    rw [noteWarning_eq]
    exact ⟨rfl, rfl, rfl, rfl⟩
  case send i d =>
    obtain ⟨htr, hlow, hhigh, htxf, herr, hno⟩ := transmitDisplay_logsFlags p (datumByte p d s) s
    exact ⟨⟨htr, hlow, hhigh, htxf, herr, hno⟩, ⟨by simp, by simp, by simp, by simp⟩⟩
  case dummy =>
    obtain ⟨htr, hlow, hhigh, htxf, herr, hno⟩ := transmitDisplay_logsFlags p 0 s
    exact ⟨⟨htr, hlow, hhigh, htxf, herr, hno⟩, ⟨by simp, by simp, by simp, by simp⟩⟩
  all_goals
    exact ⟨.of_noLog (by simp [actionEvents, drivePin]) (by simp [actionEvents]) rfl rfl rfl rfl,
      ⟨rfl, rfl, rfl, rfl⟩⟩

/-! ### Flags and log over a run -/

theorem LogsFlags.followLog {s t : State} {es : List Event} (h : LogsFlags s t es) : FlagsFollowLog s t :=
  ⟨es, h.trace, h.warnLow, h.warnHigh, h.txf, .inl ⟨h.err, h.noError⟩⟩

/-- A part that raises no error, put before a run whose flags follow its log. -/
theorem LogsFlags.trans_followLog {s t u : State} {es : List Event} (h : LogsFlags s t es)
    (g : FlagsFollowLog t u) : FlagsFollowLog s u := by
  obtain ⟨fs, htrace, hlow, hhigh, htxf, herr⟩ := g
  refine ⟨es ++ fs, by rw [htrace, h.trace, List.append_assoc], ?_, ?_, ?_, ?_⟩
  · rw [hlow, h.warnLow]; simp [Bool.or_assoc]
  · rw [hhigh, h.warnHigh]; simp [Bool.or_assoc]
  · rw [htxf, h.txf]; simp [Bool.or_assoc]
  have drop {e k} (hk : Err.logKind e = some k) (hm : Event.log k ∈ es ++ fs) : Event.log k ∈ fs :=
    (List.mem_append.1 hm).resolve_left (h.noError e k hk)
  rcases herr with ⟨herr, hno⟩ | ⟨k, hk, hm, honly⟩
  · exact .inl ⟨herr.trans h.err, fun e k hk hm => hno e k hk (drop hk hm)⟩
  · exact .inr ⟨k, hk, List.mem_append_right _ hm, fun e k' hk' hm' => honly e k' hk' (drop hk' hm')⟩

/-- An error raised is the one its entry logs (R206). -/
theorem raise_followLog (p : Params) {e : Err} {k : LogKind} (hk : e.logKind = some k) (s : State) :
    FlagsFollowLog s (raise p e s) := by
  obtain ⟨hlow, hhigh, htx⟩ := logKind_error hk
  refine ⟨[.log k], by simp [raise, Err.logEvents_eq hk], ?_, ?_, ?_, .inr ⟨k, hk, by simp, fun f k' hf hm => ?_⟩⟩
  · simp [raise, hlow.symm]
  · simp [raise, hhigh.symm]
  · simp [raise, htx.symm]
  · obtain rfl : k' = k := by simpa using hm
    exact logKind_injective hf hk

theorem passTime_logsFlags (s : State) : LogsFlags s (passTime s) [] := by
  rw [passTime_eq]
  exact .of_noLog (by simp) (by simp) rfl rfl rfl rfl

/-- The flags of a run follow its log, up to its pause, its end or its error. -/
theorem runScript_followLog (p : Params) (script : List Action) (s : State) :
    FlagsFollowLog s (runScript p script s).1 := by
  induction script generalizing s with
  | nil => exact (LogsFlags.of_noLog (es := []) (by simp) (by simp) rfl rfl rfl rfl).followLog
  | cons a rest ih =>
    unfold runScript
    split
    · exact (LogsFlags.of_noLog (es := []) (by simp) (by simp) rfl rfl rfl rfl).followLog
    · have before (t : State) (h : (doAction p a (passTime s)).Reaches t) : ∃ es, LogsFlags s t es :=
        ⟨_, (passTime_logsFlags s).trans (doAction_effect h).1⟩
      cases hd : doAction p a (passTime s) with
      | goesOn t =>
        obtain ⟨es, h⟩ := before t (by rw [hd]; rfl)
        exact h.trans_followLog (ih t)
      | breaks f t =>
        obtain ⟨es, h⟩ := before t (by rw [hd]; rfl)
        exact h.followLog
      | raises e t =>
        obtain ⟨es, h⟩ := before t (by rw [hd]; rfl)
        obtain ⟨k, hk⟩ : ∃ k, e.logKind = some k := by
          rcases doAction_raises hd with ⟨pp, -, rfl, -⟩ | ⟨ch, cfg, -, rfl, -⟩ <;> exact ⟨_, rfl⟩
        exact h.trans_followLog (raise_followLog p hk t)

/-- Settles O16: from an operation's acceptance by its refusal or its run; of a paused one by the rest of its
run. -/
theorem flagsAgreeWithTheLog : Obligations.FlagsAgreeWithTheLog := by
  refine ⟨fun i s t h => ?_, fun s t hdue hb h => ?_⟩
  · rcases exec_next_cases h with ⟨e, k, hk, rfl⟩ | ⟨script, -, hrun⟩
    · exact raise_followLog deployed hk s
    · have hf := runScript_followLog deployed script s
      rwa [hrun] at hf
  · rw [step_of_busy hdue hb, runOutcome_next] at h
    obtain ⟨-, rfl⟩ := h
    exact runScript_followLog deployed s.todo { s with todo := [] }

end Sys2Proof.Machine

/-! ### Operations run to their end -/

namespace Sys2Proof.Machine

/-- The characters that a frame at `a` reads as its own all have a glyph. -/
def FrameHasGlyphs (p : Params) (m : Memory) (a n : Nat) : Prop :=
  ∀ i, i < n → hasGlyph p (Memory.read m (a + i)) = true

/-- The frame of characters with glyphs, padded with spaces, has no bad code (R178). -/
theorem badCode_shortFrame {p : Params} {m : Memory} {a n : Nat} (hspace : hasGlyph p space = true)
    (h : FrameHasGlyphs p m a n) : badCode p (shortFrame m a n) = none := by
  have char (i : Nat) : (if i < n then Memory.read m (a + i) else space).toNat < p.glyphCount := by
    split
    · simpa [hasGlyph] using h i ‹_›
    · simpa [hasGlyph] using hspace
  rw [badCode_eq_none]
  simpa [shortFrame] using ⟨char 0, char 1, char 2, char 3⟩

/-- An action does not break a run while no byte of `TXT` has changed and its frame's characters have glyphs. -/
theorem doAction_never_breaks {p : Params} {a : Action} {s t : State} {f : Fault} (hstale : s.stale = [])
    (hspace : hasGlyph p space = true)
    (htext : ∀ addr n, a = .loadText addr n → FrameHasGlyphs p s.txt addr n) : doAction p a s ≠ .breaks f t := by
  intro hd
  obtain ⟨addr, n, rfl⟩ := doAction_breaks hd
  have hgood := badCode_shortFrame hspace (htext addr n rfl)
  simp [doAction, loadFrame, readFrame_short p addr n s hstale, hgood] at hd

/-- With no input pending, a script whose frames read characters with glyphs runs to its end or its error. -/
theorem runScript_completes {p : Params} (hspace : hasGlyph p space = true) (script : List Action) (s : State)
    (hinputs : s.inputs = []) (hstale : s.stale = [])
    (htext : ∀ addr n, Action.loadText addr n ∈ script → FrameHasGlyphs p s.txt addr n) :
    ∃ t, runScript p script s = (t, none) ∧ Over t := by
  induction script generalizing s with
  | nil => exact ⟨_, rfl, rfl, rfl⟩
  | cons a rest ih =>
    cases hd : doAction p a s with
    | goesOn t =>
      have hreach : (doAction p a s).Reaches t := by rw [hd]; rfl
      obtain ⟨-, hctl⟩ := doAction_effect hreach
      rw [runScript_cons_goesOn hinputs hd]
      refine ih t (hctl.inputs.trans hinputs) (hctl.stale.trans hstale) fun addr n hm => ?_
      rw [(doAction_frame hreach).txt]
      exact htext addr n (List.mem_cons_of_mem _ hm)
    | raises e t => exact ⟨_, runScript_cons_raises hinputs hd, rfl, rfl⟩
    | breaks f t =>
      exact absurd hd (doAction_never_breaks hstale hspace fun addr n ha => htext addr n (by simp [ha]))

/-- Every character a scroll reads is one of its string's (R177, R178). -/
theorem loadText_mem_scrollScript {p : Params} {b len addr n : Nat}
    (h : Action.loadText addr n ∈ scrollScript p b len) : ∀ i, i < n → ∃ k, k < len ∧ addr + i = b + k := by
  have hframe {x m : Nat} (hm : Action.loadText addr n ∈ scrollFrame p x m) : addr = x ∧ n = m := by
    simpa [scrollFrame, frameWindow, loadText_notMem_window] using hm
  intro i hi
  simp only [scrollScript, List.mem_cons, reduceCtorEq, false_or] at h
  split at h
  · obtain ⟨rfl, rfl⟩ := hframe h
    exact ⟨i, hi, rfl⟩
  · obtain ⟨w, hw, h⟩ := List.mem_flatMap.1 h
    have hw := List.mem_range.1 hw
    simp only [scrollStep, List.cons_append, List.mem_cons, reduceCtorEq, false_or, List.mem_append] at h
    rcases h with h | h
    · obtain ⟨rfl, rfl⟩ := hframe h
      exact ⟨w + i, by omega, by omega⟩
    · split at h <;> simp at h

/-- A script that has passed its operation's checks reads only characters with glyphs. -/
theorem Scripted.frames_have_glyphs {p : Params} {s : State} {i : Instr} {script : List Action}
    (h : Scripted p s i script) (addr n : Nat) (hm : Action.loadText addr n ∈ script) :
    FrameHasGlyphs p s.txt addr n := by
  by_cases hs : ∃ base, i = .scroll base
  · obtain ⟨base, rfl⟩ := hs
    cases h with
    | glyphs => exact absurd hm (by simp [frameWindow, loadText_notMem_window])
    | scroll _ len _ hg =>
      intro j hj
      obtain ⟨k, hk, heq⟩ := loadText_mem_scrollScript hm j hj
      rw [heq]
      simp only [stringHasGlyphs, List.all_eq_true, List.mem_range] at hg
      exact hg k hk
  · exact absurd hm (h.loadText_notMem (fun base hb => hs ⟨base, hb⟩) addr n)

theorem deployed_hasGlyph_space : hasGlyph deployed space = true := by
  have h := deployed_glyphsOk
  simp only [Params.glyphsOk, Bool.and_eq_true, decide_eq_true_eq] at h
  obtain ⟨⟨hlow, -⟩, -⟩ := h
  have hspace : space.toNat = 32 := rfl
  simp only [hasGlyph, hspace, decide_eq_true_eq]
  omega

/-- Settles O15: a refusal is over at once, a script runs to its end or its error. -/
theorem everyOperationCompletes : Obligations.EveryOperationCompletes := by
  intro i s hinputs hstale
  rw [exec_eq_perform]
  rcases planOf_cases deployed i s with ⟨e, k, hp, -⟩ | ⟨script, hp, hscr⟩ <;> rw [hp]
  · exact ⟨_, rfl, rfl, rfl⟩
  · obtain ⟨t, hrun, hover⟩ :=
      runScript_completes deployed_hasGlyph_space script s hinputs hstale hscr.frames_have_glyphs
    exact ⟨t, runOutcome_next.2 ⟨congrArg Prod.snd hrun, congrArg Prod.fst hrun⟩, hover⟩

end Sys2Proof.Machine

/-! ### The waveform of a byte -/

namespace Sys2Proof.Machine

/-- The period of bit `k`, sent most significant bit first (R52, R53). -/
def bitPeriod (cfg : BitVec 16) (b : Byte) (k : Nat) : ClockPeriod where
  sdo := b.extractLsb' k 1
  leading := leadingEdge cfg
  trailing := trailingEdge cfg
  samples := samplingPlace cfg
  changes := changingPlace cfg

/-- The eight periods of a byte on a channel with `LSBF = 0` (R50, R52). -/
theorem waveform_eq {cfg : BitVec 16} (b : Byte) (h : cfgLsbf cfg = 0) :
    waveform cfg b = [7, 6, 5, 4, 3, 2, 1, 0].map (bitPeriod cfg b) := by
  simp only [waveform, bitOrder, h, if_true, List.map_map]
  rfl

theorem waveform_length {cfg : BitVec 16} (b : Byte) (h : cfgLsbf cfg = 0) : (waveform cfg b).length = 8 := by
  rw [waveform_eq b h]
  rfl

/-- Period `k`, counted from the first, is that of bit `7 - k`. -/
theorem waveform_getElem? {cfg : BitVec 16} (b : Byte) (h : cfgLsbf cfg = 0) {k : Nat} (hk : k < 8) :
    (waveform cfg b)[k]? = some (bitPeriod cfg b (7 - k)) := by
  rw [waveform_eq b h]
  interval_cases k <;> rfl

/-- A receiver gets the byte back: its bits weighted by their places are its value. -/
theorem sampled_waveform {cfg : BitVec 16} (b : Byte) (h : cfgLsbf cfg = 0) :
    sampled (waveform cfg b) = b.toNat := by
  have hb : b.toNat < 256 := b.isLt
  rw [waveform_eq b h]
  simp only [List.map_cons, List.map_nil, sampled, bitPeriod, List.length_cons, List.length_nil,
    BitVec.extractLsb'_toNat, Nat.shiftRight_eq_div_pow]
  omega

/-- A period of the waveform has the channel's edges (R53). -/
theorem mem_waveform {cfg : BitVec 16} {b : Byte} {c : ClockPeriod} (h : c ∈ waveform cfg b) :
    c.leading = leadingEdge cfg ∧ c.trailing = trailingEdge cfg ∧ c.changes = changingPlace cfg := by
  obtain ⟨v, -, rfl⟩ := List.mem_map.1 h
  exact ⟨rfl, rfl, rfl⟩

/-- The leading edge leaves the rest level and the trailing edge comes back to it (R53). -/
theorem clockEdges_opposite (cfg : BitVec 16) :
    leadingEdge cfg ≠ trailingEdge cfg ∧ (leadingEdge cfg = .rising ↔ restLevel cfg = 0) := by
  unfold leadingEdge trailingEdge restLevel
  split <;> simp_all

theorem lineEdges_length (prev : Option (BitVec 1)) (cs : List ClockPeriod) :
    (lineEdges prev cs).length = 2 * cs.length := by
  induction cs generalizing prev with
  | nil => rfl
  | cons c cs ih =>
    have hedges : (c.edges prev).length = 2 := by
      unfold ClockPeriod.edges
      split <;> rfl
    simp [lineEdges, ih, hedges]
    omega

/-- With changes at the trailing edge, period `k` has its bit from before its leading edge up to its trailing
one (R53). -/
theorem lineEdges_of_trailing {cs : List ClockPeriod} (h : ∀ c ∈ cs, c.changes = .trailing)
    (prev : Option (BitVec 1)) (k : Nat) :
    (lineEdges prev cs)[2 * k]? = cs[k]?.map (fun c => ⟨.leading, c.leading, some c.sdo, some c.sdo⟩) ∧
      (lineEdges prev cs)[2 * k + 1]? = cs[k]?.map (fun c => ⟨.trailing, c.trailing, some c.sdo, none⟩) := by
  induction cs generalizing prev k with
  | nil => simp [lineEdges]
  | cons c cs ih =>
    obtain ⟨hc, hcs⟩ := List.forall_mem_cons.1 h
    cases k with
    | zero => simp [lineEdges, ClockPeriod.edges, hc]
    | succ k => simpa [lineEdges, ClockPeriod.edges, hc, Nat.mul_add] using ih hcs (some c.sdo) k

/-- With changes at the leading edge, the bit of the period before stands up to it, and period `k` has its own
across its trailing edge (R53). -/
theorem lineEdges_of_leading {cs : List ClockPeriod} (h : ∀ c ∈ cs, c.changes = .leading)
    (prev : Option (BitVec 1)) (k : Nat) :
    (lineEdges prev cs)[2 * k]? =
        cs[k]?.map (fun c => ⟨.leading, c.leading, if k = 0 then prev else cs[k - 1]?.map ClockPeriod.sdo, none⟩) ∧
      (lineEdges prev cs)[2 * k + 1]? =
        cs[k]?.map (fun c => ⟨.trailing, c.trailing, some c.sdo, some c.sdo⟩) := by
  induction cs generalizing prev k with
  | nil => simp [lineEdges]
  | cons c cs ih =>
    obtain ⟨hc, hcs⟩ := List.forall_mem_cons.1 h
    cases k with
    | zero => simp [lineEdges, ClockPeriod.edges, hc]
    | succ k =>
      have hprev : (if k = 0 then some c.sdo else cs[k - 1]?.map ClockPeriod.sdo) =
          (c :: cs)[k]?.map ClockPeriod.sdo := by
        cases k <;> simp
      have ih := ih hcs (some c.sdo) k
      rw [hprev] at ih
      simpa [lineEdges, ClockPeriod.edges, hc, Nat.mul_add] using ih

/-- Settles O52: the eight periods read one by one, and the edges by where `SDO` changes. -/
theorem waveformCarriesTheByte : Obligations.WaveformCarriesTheByte := by
  intro cfg b hlsb _
  have hperiod {k : Nat} (hk : k < 8) := waveform_getElem? b hlsb hk
  have hchanges : ∀ c ∈ waveform cfg b, c.changes = changingPlace cfg := fun c hc => (mem_waveform hc).2.2
  refine ⟨waveform_length b hlsb, sampled_waveform b hlsb, fun k hk => ?_, fun c hc => ?_, ?_, ?_, ?_, ?_,
    fun hcpha k hk => ?_, fun hcpha k hk => ?_⟩
  · simp [List.getD_eq_getElem?_getD, hperiod hk, bitPeriod]
  · obtain ⟨hlead, htrail, -⟩ := mem_waveform hc
    rw [hlead, htrail]
    exact clockEdges_opposite cfg
  · simp [clockLevels, waveform_eq b hlsb]
  · simp [clockLevels, waveform_eq b hlsb]
  · simp [clockLevels, waveform_eq b hlsb]
  · rw [byteEdges, lineEdges_length, waveform_length b hlsb]
  · have htrailing : changingPlace cfg = .trailing := by simp [changingPlace, hcpha]
    obtain ⟨heven, hodd⟩ := lineEdges_of_trailing (fun c hc => (hchanges c hc).trans htrailing) none k
    rw [hperiod hk] at heven hodd
    exact ⟨heven, hodd⟩
  · have hleading : changingPlace cfg = .leading := by simp [changingPlace, hcpha]
    obtain ⟨heven, hodd⟩ := lineEdges_of_leading (fun c hc => (hchanges c hc).trans hleading) none k
    rw [hperiod hk] at heven hodd
    refine ⟨heven.trans ?_, hodd⟩
    cases k with
    | zero => rfl
    | succ k => simp [hperiod (show k < 8 by omega), bitPeriod]

end Sys2Proof.Machine

/-! ### The invariant -/

namespace Sys2Proof.Machine

/-! #### The bits of a transport configuration -/

/-- Setting `VALID` leaves every other field (R19, R125). -/
theorem cfgFields_or_validBit (c : BitVec 16) :
    cfgMstr (c ||| validBit) = cfgMstr c ∧ cfgHwcs (c ||| validBit) = cfgHwcs c ∧
      cfgLsbf (c ||| validBit) = cfgLsbf c ∧ cfgW16 (c ||| validBit) = cfgW16 c ∧
      cfgBr (c ||| validBit) = cfgBr c ∧ cfgZero (c ||| validBit) = cfgZero c := by
  have field (start len : Nat) (h : validBit.extractLsb' start len = 0) :
      (c ||| validBit).extractLsb' start len = c.extractLsb' start len := by
    rw [BitVec.extractLsb'_or, h]
    simp
  exact ⟨field 2 1 (by decide), field 6 1 (by decide), field 7 1 (by decide), field 8 1 (by decide),
    field 3 3 (by decide), field 10 6 (by decide)⟩

theorem cfgValid_or_validBit (c : BitVec 16) : cfgValid (c ||| validBit) = 1 := by
  have hv : validBit.extractLsb' 9 1 = 1 := by decide
  unfold cfgValid
  rw [BitVec.extractLsb'_or, hv]
  generalize c.extractLsb' 9 1 = x
  revert x
  decide

theorem cfgFixed_or_validBit (p : Params) (c : BitVec 16) : cfgFixed p (c ||| validBit) = cfgFixed p c := by
  obtain ⟨hmstr, hhwcs, hlsbf, hw16, hbr, -⟩ := cfgFields_or_validBit c
  simp only [cfgFixed, hmstr, hhwcs, hlsbf, hw16, hbr]

/-- A failed transport init leaves `VALID` and bits 15:10 at 0 (R125, R19). -/
theorem cfgFields_unspecified (c : BitVec 16) :
    cfgValid (c &&& unspecifiedFields) = 0 ∧ cfgZero (c &&& unspecifiedFields) = 0 := by
  have field (start len : Nat) (h : unspecifiedFields.extractLsb' start len = 0) :
      (c &&& unspecifiedFields).extractLsb' start len = 0 := by
    rw [BitVec.extractLsb'_and, h]
    simp
  exact ⟨field 9 1 (by decide), field 10 6 (by decide)⟩

/-- The staged configuration is the fixed one, its divisor code one of the table (R123). -/
theorem cfgFixed_stagedCfg (ch : Nat) (pp : Word) :
    cfgFixed deployed (stagedCfg deployed ch pp) = true ∧ cfgZero (stagedCfg deployed ch pp) = 0 := by
  obtain ⟨-, hmstr, hhwcs, hlsbf, hw16, hzero, -, -, -⟩ := stagedCfg_fields deployed ch pp
  have hcode : ∀ br : BitVec 3, deployed.presc.any (fun e => e.code = br) = true := by decide
  exact ⟨by simp [cfgFixed, hmstr, hhwcs, hlsbf, hw16, hcode], hzero⟩

/-! #### The transport registers -/

/-- The clauses of the invariant on the transport registers and their events. -/
structure TransportInv (s : State) : Prop where
  fixedSettings : ∀ ch, cfgValid (Sparse.read s.tcfg ch) = 1 → cfgFixed deployed (Sparse.read s.tcfg ch) = true
  zeroBits : ∀ ch, cfgZero (Sparse.read s.tcfg ch) = 0
  gates : ∀ ch, s.trace.count (.clkGate ch) = (Sparse.read s.clken ch).toNat
  gateMap : Sparse.wf s.clken = true
  cfgMap : Sparse.wf s.tcfg = true

theorem TransportInv.of_same {s t : State} (h : TransportInv s) {es : List Event} (hclken : t.clken = s.clken)
    (htcfg : t.tcfg = s.tcfg) (htrace : t.trace = s.trace ++ es) (hes : ∀ ch, Event.clkGate ch ∉ es) :
    TransportInv t where
  fixedSettings := htcfg ▸ h.fixedSettings
  zeroBits := htcfg ▸ h.zeroBits
  gates ch := by rw [htrace, List.count_append, List.count_eq_zero_of_not_mem (hes ch), hclken, h.gates ch]; rfl
  gateMap := hclken ▸ h.gateMap
  cfgMap := htcfg ▸ h.cfgMap

/-- A channel's configuration is overwritten with an invalid or a fixed one. -/
theorem TransportInv.of_write {s t : State} (h : TransportInv s) {es : List Event} {ch : Nat} {c : BitVec 16}
    (hfixed : cfgValid c = 1 → cfgFixed deployed c = true) (hzero : cfgZero c = 0) (hclken : t.clken = s.clken)
    (htcfg : t.tcfg = Sparse.write s.tcfg ch c) (htrace : t.trace = s.trace ++ es)
    (hes : ∀ ch, Event.clkGate ch ∉ es) : TransportInv t where
  fixedSettings x := by
    rw [htcfg]
    by_cases hx : x = ch
    · rw [hx, Sparse.read_write_same _ _ _ h.cfgMap]
      exact hfixed
    · rw [Sparse.read_write_other _ _ _ _ hx]
      exact h.fixedSettings x
  zeroBits x := by
    rw [htcfg]
    by_cases hx : x = ch
    · rw [hx, Sparse.read_write_same _ _ _ h.cfgMap]
      exact hzero
    · rw [Sparse.read_write_other _ _ _ _ hx]
      exact h.zeroBits x
  gates x := by rw [htrace, List.count_append, List.count_eq_zero_of_not_mem (hes x), hclken, h.gates x]; rfl
  gateMap := hclken ▸ h.gateMap
  cfgMap := htcfg ▸ Sparse.write_wf _ _ _ h.cfgMap

/-- A gate switched on brings its one event (R122). -/
theorem TransportInv.enableGate {s : State} (h : TransportInv s) (ch : Nat) :
    TransportInv (Machine.enableGate ch s) := by
  rw [enableGate_eq ch s h.gateMap]
  refine ⟨h.fixedSettings, h.zeroBits, fun x => ?_, Sparse.write_wf _ _ _ h.gateMap, h.cfgMap⟩
  rw [List.count_append, h.gates x]
  by_cases hx : x = ch
  · subst hx
    rw [Sparse.read_write_same _ _ _ h.gateMap]
    split
    · simp [*]
    · simp [gate_on_of_ne ‹_›]
  · rw [Sparse.read_write_other _ _ _ _ hx]
    split <;> simp [Ne.symm hx]

/-- A transport init with the fixed settings leaves its channel with them, or invalid (R125). -/
theorem TransportInv.transportInit {s t : State} (h : TransportInv s) {ch : Nat} {cfg : BitVec 16}
    (hfixed : cfgFixed deployed cfg = true) (hzero : cfgZero cfg = 0)
    (ht : (Machine.transportInit deployed ch cfg s).Reaches t) : TransportInv t := by
  unfold Machine.transportInit at ht
  split at ht <;> simp only [ActionResult.Reaches] at ht <;> subst ht
  · obtain ⟨-, -, -, -, -, hz⟩ := cfgFields_or_validBit cfg
    exact h.of_write (ch := ch) (c := cfg ||| validBit) (es := [.tinit ch cfg (nextAnswer deployed s)])
      (fun _ => (cfgFixed_or_validBit deployed cfg).trans hfixed) (hz.trans hzero) (by simp [commitCfg])
      (by simp [commitCfg]) (by simp [commitCfg]) (by simp)
  · obtain ⟨hv, hz⟩ := cfgFields_unspecified
      (deployed.freeTcfg (emit (.tinit ch cfg (nextAnswer deployed s)) (useAnswer s)).fresh)
    exact h.of_write (ch := ch) (es := [.tinit ch cfg (nextAnswer deployed s)])
      (fun hv1 => absurd (hv.symm.trans hv1) (by decide)) hz (by simp [spoilCfg]) (by simp [spoilCfg]) (by simp [spoilCfg]) (by simp)

/-- Only the gate action switches a clock gate on. -/
theorem gate_of_clkGate_mem {p : Params} {a : Action} {s : State} {ch : Nat}
    (h : Event.clkGate ch ∈ actionEvents p a s) : a = .gate ch := by
  have hstatus : Event.clkGate ch ∉ statusEvents (nextAnswer p s) := by
    cases nextAnswer p s <;> simp [statusEvents]
  cases a <;> simp [actionEvents, hstatus] at h
  case gate c => exact congrArg Action.gate h.2.symm
  case warn w => cases w <;> simp [Warn.logEvents] at h

/-- Every action keeps the clauses on the transport registers, a staged configuration being the fixed one. -/
theorem TransportInv.doAction {s t : State} (h : TransportInv s) {a : Action}
    (hcfg : ∀ ch cfg, a = .tinit ch cfg → cfgFixed deployed cfg = true ∧ cfgZero cfg = 0)
    (ht : (Machine.doAction deployed a s).Reaches t) : TransportInv t := by
  cases ha : a.writesTransport with
  | false =>
    obtain ⟨hclken, htcfg⟩ := doAction_transport ha ht
    refine h.of_same hclken htcfg (doAction_effect ht).1.trace fun ch hm => ?_
    rw [gate_of_clkGate_mem hm] at ha
    exact absurd ha (by simp [Action.writesTransport])
  | true =>
    cases a <;> simp [Action.writesTransport] at ha
    case gate ch =>
      simp only [Machine.doAction, ActionResult.Reaches] at ht
      exact ht ▸ h.enableGate ch
    case tinit ch cfg =>
      obtain ⟨hfixed, hzero⟩ := hcfg ch cfg rfl
      exact h.transportInit hfixed hzero ht

/-! #### Phase, chip enable and the display's validity -/

/-- The phase an action leads to (R13, R140). -/
def phaseAfter (a : Action) (ph : Phase) : Phase :=
  match a with
  | .selectSpace _ => .selectRegister
  | .openWindow => .enabled
  | .startData => .writing
  | .closeWindow => .latching
  | .dummy => .idle
  | _ => ph

/-- The level an action leaves `CE` at (R140). -/
def ceAfter (a : Action) (ce : Level) : Level :=
  match a with
  | .openWindow => 0
  | .closeWindow => 1
  | _ => ce

theorem doAction_phase {p : Params} {a : Action} {s t : State} (h : (doAction p a s).Reaches t) :
    t.ph = phaseAfter a s.ph ∧ t.ce = ceAfter a s.ce := by
  cases a <;> simp only [doAction] at h
  case loadText addr n => rw [loadFrame_reaches h]; exact ⟨rfl, rfl⟩
  case tinit ch cfg => rw [transportInit_reaches h]; exact ⟨by simp [phaseAfter], by simp [ceAfter]⟩
  case checkPolarity pp =>
    have ht : t = s := by split at h <;> exact h
    rw [ht]
    exact ⟨rfl, rfl⟩
  all_goals
    simp only [ActionResult.Reaches] at h
    subst h
  case gate ch => unfold enableGate; split <;> exact ⟨rfl, rfl⟩
  case warn w => rw [noteWarning_eq]; exact ⟨rfl, rfl⟩
  all_goals simp [phaseAfter, ceAfter, drivePin]

/-- Whether an action that goes on leaves the display's channel valid (R125). -/
def validAfter (p : Params) (a : Action) (valid : Bool) : Bool :=
  match a with
  | .tinit ch _ => valid || ch = p.dispCh
  | _ => valid

/-- R24 (b): the window is open in the phases `Enabled` and `Writing`. -/
def ChipMatchesPhase (ce : Level) (ph : Phase) : Prop := ce = 0 ↔ (ph = .enabled ∨ ph = .writing)

/-- Where an action in its place leads, chip enable and phase still agreeing. -/
theorem flow_leads {p : Params} {a : Action} {ph ph' : Phase} {v v' : Bool} {ce : Level}
    (h : flow p a ph v = some (ph', v')) (hchip : ChipMatchesPhase ce ph) :
    ph' = phaseAfter a ph ∧ v' = validAfter p a v ∧ ChipMatchesPhase (ceAfter a ce) ph' := by
  unfold ChipMatchesPhase at *
  cases a <;> simp only [flow, Option.ite_none_right_eq_some, Option.some.injEq, Prod.mk.injEq] at h
  case delayUs n =>
    obtain ⟨rfl, rfl⟩ := h
    exact ⟨rfl, rfl, hchip⟩
  all_goals
    obtain ⟨hplace, rfl, rfl⟩ := h
    simp_all [phaseAfter, validAfter, ceAfter]

/-- An action that can raise an error stands where the window is closed. -/
theorem idle_of_raises {p : Params} {a : Action} {s t : State} {e : Err} {v : Bool} {r : Phase × Bool}
    (h : doAction p a s = .raises e t) (hf : flow p a s.ph v = some r) : s.ph = .idle := by
  rcases doAction_raises h with ⟨pp, rfl, -, -⟩ | ⟨ch, cfg, rfl, -, -⟩ <;>
    simp only [flow, Option.ite_none_right_eq_some] at hf
  · exact hf.1
  · exact hf.1.1

/-- An action that goes on leaves the display's channel as valid as `validAfter` says (R125). -/
theorem doAction_valid {p : Params} {a : Action} {s t : State} (hwf : Sparse.wf s.tcfg = true)
    (h : doAction p a s = .goesOn t) :
    channelValid t p.dispCh = validAfter p a (channelValid s p.dispCh) := by
  have same (htcfg : t.tcfg = s.tcfg) : channelValid t p.dispCh = channelValid s p.dispCh := by
    simp only [channelValid, htcfg]
  have hreach : (doAction p a s).Reaches t := by rw [h]; rfl
  cases ha : a.writesTransport with
  | false =>
    rw [same (doAction_transport ha hreach).2]
    cases a <;> simp [Action.writesTransport, validAfter] at ha ⊢
  | true =>
    cases a <;> simp [Action.writesTransport] at ha
    case gate ch =>
      refine same ?_
      cases h
      unfold enableGate
      split <;> rfl
    case tinit ch cfg =>
      simp only [doAction, transportInit] at h
      split at h <;> cases h
      simp only [channelValid, commitCfg, emit_tcfg, useAnswer_tcfg, validAfter]
      by_cases hch : ch = p.dispCh
      · subst hch
        simp [Sparse.read_write_same _ _ _ hwf, cfgValid_or_validBit]
      · simp [Sparse.read_write_other _ _ _ _ (Ne.symm hch), hch]

/-! #### A run keeps the invariant -/

/-- The clauses of the invariant on the registers, which hold at every action. -/
structure Registers (s : State) : Prop where
  chipEnable : ChipMatchesPhase s.ce s.ph
  transport : TransportInv s
  text : Memory.wf s.txt = true

theorem Inv.registers {s : State} (h : Inv s) : Registers s :=
  ⟨h.chipEnable, ⟨h.fixedSettings, h.zeroBits, h.gates, h.gateMap, h.cfgMap⟩, h.text⟩

/-- The invariant is the registers' clauses and the position's. -/
theorem Registers.inv {s : State} (h : Registers s)
    (rest : s.busy = false → s.ph = .idle ∧ s.todo = [] ∧ s.stale = [])
    (position : flows deployed s.todo s.ph (channelValid s deployed.dispCh) = true)
    (configuredFirst : transportFirst s.todo = true) : Inv s :=
  ⟨h.chipEnable, rest, position, configuredFirst, h.transport.fixedSettings, h.transport.zeroBits,
    h.transport.gates, h.text, h.transport.gateMap, h.transport.cfgMap⟩

/-- The registers' clauses outlive any change of the other fields, and log entries. -/
theorem Registers.of_same {s t : State} (h : Registers s) {es : List Event} (hce : t.ce = s.ce) (hph : t.ph = s.ph)
    (hclken : t.clken = s.clken) (htcfg : t.tcfg = s.tcfg) (htxt : t.txt = s.txt) (htrace : t.trace = s.trace ++ es)
    (hes : ∀ ch, Event.clkGate ch ∉ es) : Registers t :=
  ⟨by rw [hce, hph]; exact h.chipEnable, h.transport.of_same hclken htcfg htrace hes, htxt ▸ h.text⟩

/-- The registers' clauses outlive any change of the other fields. -/
theorem Registers.of_eq {s t : State} (h : Registers s) (hce : t.ce = s.ce) (hph : t.ph = s.ph)
    (hclken : t.clken = s.clken) (htcfg : t.tcfg = s.tcfg) (htxt : t.txt = s.txt) (htrace : t.trace = s.trace) :
    Registers t :=
  h.of_same (es := []) hce hph hclken htcfg htxt (by rw [htrace, List.append_nil]) (by simp)

/-- A block at rest: nothing runs, the phase idle. -/
theorem Registers.inv_of_over {s : State} (h : Registers s) (hph : s.ph = .idle) (htodo : s.todo = [])
    (hstale : s.stale = []) : Inv s :=
  h.inv (fun _ => ⟨hph, htodo, hstale⟩) (by simp [htodo, hph, flows]) (by simp [htodo, transportFirst])

theorem Registers.endOperation {s : State} (h : Registers s) (hph : s.ph = .idle) :
    Inv (Machine.endOperation deployed s) :=
  (h.of_eq (t := Machine.endOperation deployed s) rfl rfl rfl rfl rfl rfl).inv_of_over hph rfl rfl

theorem clkGate_notMem_logEvents (e : Err) (ch : Nat) : Event.clkGate ch ∉ e.logEvents := by
  cases h : e.logKind <;> simp [Err.logEvents, h]

theorem Registers.raise {s : State} (h : Registers s) (hph : s.ph = .idle) (e : Err) :
    Inv (Machine.raise deployed e s) :=
  (h.of_same (t := recordError e s) (es := e.logEvents) rfl rfl rfl rfl rfl rfl
    (clkGate_notMem_logEvents e)).endOperation hph

/-- A running operation whose rest is `script`: the registers' clauses, and the rest in its place. -/
structure Running (script : List Action) (s : State) : Prop where
  registers : Registers s
  busy : s.busy = true
  position : flows deployed script s.ph (channelValid s deployed.dispCh) = true
  configuredFirst : transportFirst script = true

theorem transportFirst_of_noTinit {script : List Action} (h : noTinit script = true) :
    transportFirst script = true := by
  induction script with
  | nil => rfl
  | cons a rest ih =>
    simp only [noTinit, List.all_cons, Bool.and_eq_true] at h
    cases a with
    | send _ _ => exact h.2
    | dummy => exact h.2
    | _ => exact ih h.2

theorem transportFirst_tail {a : Action} {rest : List Action} (h : transportFirst (a :: rest) = true) :
    transportFirst rest = true := by
  cases a with
  | send _ _ => exact transportFirst_of_noTinit h
  | dummy => exact transportFirst_of_noTinit h
  | _ => exact h

/-- The first action of a running operation stands in its place. -/
theorem Running.flow {a : Action} {rest : List Action} {s : State} (h : Running (a :: rest) s) :
    ∃ ph v, Machine.flow deployed a s.ph (channelValid s deployed.dispCh) = some (ph, v) ∧
      flows deployed rest ph v = true := by
  have hpos := h.position
  rw [flows] at hpos
  split at hpos
  · exact ⟨_, _, ‹_›, hpos⟩
  · cases hpos

theorem cfg_of_flow {ch : Nat} {cfg : BitVec 16} {ph : Phase} {v : Bool} {r : Phase × Bool}
    (h : flow deployed (.tinit ch cfg) ph v = some r) : cfgFixed deployed cfg = true ∧ cfgZero cfg = 0 := by
  simp only [flow, Option.ite_none_right_eq_some] at h
  exact h.1.2

/-- The registers' clauses after an action in its place, however it ends. -/
theorem Running.registers_doAction {a : Action} {rest : List Action} {s t : State} (h : Running (a :: rest) s)
    (ht : (doAction deployed a s).Reaches t) : Registers t := by
  obtain ⟨ph, v, hf, -⟩ := h.flow
  obtain ⟨hph, -, hchip⟩ := flow_leads hf h.registers.chipEnable
  obtain ⟨htph, htce⟩ := doAction_phase ht
  refine ⟨?_, h.registers.transport.doAction (fun ch cfg ha => cfg_of_flow (ha ▸ hf)) ht, ?_⟩
  · rw [htph, htce, ← hph]
    exact hchip
  · rw [(doAction_frame ht).txt]
    exact h.registers.text

/-- An action that goes on leaves the rest of the operation running. -/
theorem Running.goesOn {a : Action} {rest : List Action} {s t : State} (h : Running (a :: rest) s)
    (hd : doAction deployed a s = .goesOn t) : Running rest t := by
  have hreach : (doAction deployed a s).Reaches t := by rw [hd]; rfl
  obtain ⟨ph, v, hf, hrest⟩ := h.flow
  obtain ⟨hph, hv, -⟩ := flow_leads hf h.registers.chipEnable
  refine ⟨h.registers_doAction hreach, (doAction_effect hreach).2.busy.trans h.busy, ?_,
    transportFirst_tail h.configuredFirst⟩
  rw [(doAction_phase hreach).1, doAction_valid h.registers.transport.cfgMap hd, ← hph, ← hv]
  exact hrest

/-- An error ends the operation with the window closed. -/
theorem Running.raises {a : Action} {rest : List Action} {s t : State} {e : Err} (h : Running (a :: rest) s)
    (hd : doAction deployed a s = .raises e t) : Inv (raise deployed e t) := by
  have hreach : (doAction deployed a s).Reaches t := by rw [hd]; rfl
  obtain ⟨ph, v, hf, -⟩ := h.flow
  refine (h.registers_doAction hreach).raise ?_ e
  have hidle := idle_of_raises hd hf
  rw [(doAction_phase hreach).1, hidle]
  rcases doAction_raises hd with ⟨pp, rfl, -, -⟩ | ⟨ch, cfg, rfl, -, -⟩ <;> rfl

theorem Running.passTime {script : List Action} {s : State} (h : Running script s) :
    Running script (Machine.passTime s) := by
  rw [passTime_eq]
  exact ⟨h.registers.of_eq rfl rfl rfl rfl rfl rfl, h.busy, h.position, h.configuredFirst⟩

/-- A run from an action in its place leaves the invariant, at its pause, its end or its error. -/
theorem Running.inv_of_runScript {script : List Action} {s t : State} (h : Running script s)
    (ht : runScript deployed script s = (t, none)) : Inv t := by
  induction script generalizing s with
  | nil =>
    obtain rfl : endOperation deployed s = t := congrArg Prod.fst ht
    exact h.registers.endOperation (by simpa [flows] using h.position)
  | cons a rest ih =>
    unfold runScript at ht
    split at ht
    · obtain rfl : { s with todo := a :: rest } = t := congrArg Prod.fst ht
      refine Registers.inv (h.registers.of_eq rfl rfl rfl rfl rfl rfl) (fun hb => ?_) h.position h.configuredFirst
      exact absurd (h.busy.symm.trans hb) (by decide)
    · split at ht
      · exact ih (h.passTime.goesOn ‹_›) ht
      · obtain rfl := congrArg Prod.fst ht
        exact h.passTime.raises ‹_›
      · cases ht

/-! #### Every operation starts in its place -/

/-- Actions that can be done with the display's channel valid, starting and ending between windows. -/
def BetweenWindows (script : List Action) : Prop :=
  ∀ rest, flows deployed (script ++ rest) .idle true = flows deployed rest .idle true

theorem BetweenWindows.append {xs ys : List Action} (hx : BetweenWindows xs) (hy : BetweenWindows ys) :
    BetweenWindows (xs ++ ys) := fun rest => by rw [List.append_assoc, hx, hy]

theorem BetweenWindows.flatMap {xs : List Nat} {f : Nat → List Action} (h : ∀ x, BetweenWindows (f x)) :
    BetweenWindows (xs.flatMap f) := by
  induction xs with
  | nil => exact fun _ => rfl
  | cons x xs ih => exact (h x).append ih

theorem BetweenWindows.flows {script : List Action} (h : BetweenWindows script) :
    Machine.flows deployed script .idle true = true := by
  have hnil := h []
  rwa [List.append_nil] at hnil

theorem flows_sendFrom (data : List Datum) (i : Nat) (rest : List Action) :
    flows deployed (sendFrom i data ++ rest) .writing true = flows deployed rest .writing true := by
  induction data generalizing i with
  | nil => rfl
  | cons d ds ih => simpa [sendFrom, flows, flow] using ih (i + 1)

/-- A window is done in order (R140). -/
theorem window_betweenWindows (sp : Space) (data : List Datum) : BetweenWindows (window deployed sp data) := by
  intro rest
  simp [window, flows, flow, flows_sendFrom]

theorem scrollFrame_betweenWindows (a n : Nat) : BetweenWindows (scrollFrame deployed a n) := fun rest => by
  rw [scrollFrame, List.cons_append]
  exact window_betweenWindows .dot frameData rest

theorem scrollStep_betweenWindows (b len w : Nat) : BetweenWindows (scrollStep deployed b len w) := by
  have hframe := scrollFrame_betweenWindows (b + w) 4
  intro rest
  rw [scrollStep, List.cons_append, List.cons_append, List.append_assoc]
  refine (hframe _).trans ?_
  split <;> rfl

theorem scrollScript_betweenWindows (b len : Nat) : BetweenWindows (scrollScript deployed b len) := by
  intro rest
  rw [scrollScript, List.cons_append]
  split
  · exact scrollFrame_betweenWindows b len rest
  · exact BetweenWindows.flatMap (scrollStep_betweenWindows b len) rest

/-- A configuration is done in order, and leaves the display valid if it is the display's (R120). -/
theorem flows_configureScript (ch : Nat) (pp : Word) (valid : Bool) (rest : List Action) :
    flows deployed (configureScript deployed ch pp ++ rest) .idle valid =
      flows deployed rest .idle (valid || ch = deployed.dispCh) := by
  obtain ⟨hfixed, hzero⟩ := cfgFixed_stagedCfg ch pp
  simp [configureScript, flows, flow, hfixed, hzero]

/-- The actions of every operation stand in their places. -/
theorem Scripted.flows {s : State} {i : Instr} {script : List Action} (h : Scripted deployed s i script) :
    Machine.flows deployed script .idle (channelValid s deployed.dispCh) = true := by
  cases h with
  | seldiv => rfl
  | configure ch pp => simpa [Machine.flows] using flows_configureScript ch.toNat pp (channelValid s deployed.dispCh) []
  | init pp =>
    simp only [initScript, List.append_assoc, List.singleton_append]
    refine (flows_configureScript deployed.dispCh pp _ _).trans ?_
    rw [decide_eq_true rfl, Bool.or_true]
    exact ((window_betweenWindows .dot _).append (window_betweenWindows .ctrl _)).flows
  | control _ _ _ hv => rw [hv]; exact (window_betweenWindows _ _).flows
  | clear hv => rw [hv]; exact (window_betweenWindows _ _).flows
  | glyphs _ _ hv => rw [hv]; exact (window_betweenWindows .dot frameData).flows
  | scroll _ _ hv => rw [hv]; exact (scrollScript_betweenWindows _ _).flows

theorem noTinit_of_plain {script : List Action} (h : ∀ a ∈ script, a.writesTransport = false) :
    noTinit script = true := by
  refine List.all_eq_true.2 fun a ha => ?_
  have hplain := h a ha
  cases a with
  | tinit _ _ => cases hplain
  | _ => rfl

/-- No operation configures a channel after it has transmitted (R171). -/
theorem Scripted.transportFirst {s : State} {i : Instr} {script : List Action} (h : Scripted deployed s i script) :
    Machine.transportFirst script = true := by
  have hwindow (sp : Space) (data : List Datum) : noTinit (window deployed sp data) = true :=
    noTinit_of_plain fun a ha => (window_plain ha).1
  cases h with
  | seldiv => rfl
  | configure => rfl
  | init =>
    have hboth : noTinit (clearWindow deployed ++ controlWindow deployed (initControlByte deployed)) = true :=
      List.all_append.trans (Bool.and_eq_true_iff.2 ⟨hwindow _ _, hwindow _ _⟩)
    have hfirst := transportFirst_of_noTinit hboth
    rw [initScript, List.append_assoc]
    exact hfirst
  | control => exact transportFirst_of_noTinit (hwindow _ _)
  | clear => exact transportFirst_of_noTinit (hwindow _ _)
  | glyphs => exact transportFirst_of_noTinit (hwindow .dot frameData)
  | scroll => exact transportFirst_of_noTinit (noTinit_of_plain fun a ha => (scrollScript_plain ha).1)

/-! #### Every step keeps the invariant -/

/-- An accepted operation, refused or run, leaves the invariant. -/
theorem Registers.inv_of_exec {i : Instr} {s t : State} (h : Registers s) (hb : s.busy = true) (hph : s.ph = .idle)
    (ht : exec i s = .next t) : Inv t := by
  rcases exec_next_cases ht with ⟨e, k, -, rfl⟩ | ⟨script, hscr, hrun⟩
  · exact h.raise hph e
  · exact Running.inv_of_runScript ⟨h, hb, by rw [hph]; exact hscr.flows, hscr.transportFirst⟩ hrun

/-- A block with the registers of R34 meets the invariant. -/
theorem inv_of_reset {s : State} (hce : s.ce = 1) (hph : s.ph = .idle) (htodo : s.todo = []) (hstale : s.stale = [])
    (hclken : s.clken = []) (htcfg : s.tcfg = []) (htrace : s.trace = []) (htxt : Memory.wf s.txt = true) : Inv s := by
  have hvalid : ∀ ch, cfgValid (Sparse.read ([] : Sparse 16) ch) ≠ 1 := fun ch => by
    simp only [Sparse.read, Sparse.unlisted]
    decide
  refine Registers.inv_of_over ⟨by simp [ChipMatchesPhase, hce, hph], ⟨?_, ?_, ?_, ?_, ?_⟩, htxt⟩ hph htodo hstale
  · exact fun ch hv => absurd (htcfg ▸ hv) (hvalid ch)
  · intro ch
    simp only [htcfg, Sparse.read, Sparse.unlisted]
    decide
  · simp [hclken, htrace, Sparse.read, Sparse.unlisted]
  · rw [hclken]; rfl
  · rw [htcfg]; rfl

/-- An input of the host leaves the invariant (R44, R240). -/
theorem Inv.landInput {s : State} (h : Inv s) (act : HostAct) (rest : List HostInput) :
    Inv (Machine.landInput deployed act { s with inputs := rest }) := by
  cases act with
  | reset => exact inv_of_reset rfl rfl rfl rfl rfl rfl rfl h.text
  | writeTxt a v =>
    obtain ⟨hchip, htransport, -⟩ := h.registers
    have hlanded : TransportInv (hostWrite a v { s with inputs := rest }) :=
      htransport.of_same (es := []) rfl rfl (by simp [hostWrite]) (by simp)
    refine Registers.inv ⟨hchip, hlanded, Memory.write_wf _ _ _ h.text a.isLt⟩ (fun hb => ?_) h.position
      h.configuredFirst
    obtain ⟨hph, htodo, hstale⟩ := h.idleWhenDone hb
    have hbusy : s.busy = false := hb
    exact ⟨hph, htodo, by simp [Machine.landInput, hostWrite, hbusy, hstale]⟩

/-- Settles O10. -/
theorem invariantHoldsAtReset : Obligations.InvariantHoldsAtReset :=
  inv_of_reset rfl rfl rfl rfl rfl rfl rfl rfl

/-- Settles O11, turn by turn: a run, begun or gone on with, keeps every action in its place. -/
theorem everyStepKeepsTheInvariant : Obligations.EveryStepKeepsTheInvariant := by
  intro s t h hstep
  have hreg := h.registers
  cases turn_of_step hstep with
  | lands act rest hin ht => exact ht ▸ h.landInput act rest
  | resumes hdue hb ht =>
    have hrun : Running s.todo { s with todo := [] } :=
      ⟨hreg.of_eq rfl rfl rfl rfl rfl rfl, hb, h.position, h.configuredFirst⟩
    exact hrun.inv_of_runScript ht
  | runs cw rest i hb hp ht =>
    obtain ⟨hph, -, -⟩ := h.idleWhenDone hb
    have hacc : Registers (accept cw { s with port := rest }) := hreg.of_eq rfl rfl rfl rfl rfl rfl
    exact hacc.inv_of_exec rfl hph ht
  | reports cw rest hb hp ht =>
    obtain ⟨hph, htodo, hstale⟩ := h.idleWhenDone hb
    have hrep : Registers (illegalCommand (accept cw { s with port := rest })) :=
      hreg.of_same rfl rfl rfl rfl rfl rfl (clkGate_notMem_logEvents .illegalCommand)
    exact ht ▸ hrep.inv_of_over hph htodo hstale
  | waits hb hp ht =>
    obtain ⟨hph, htodo, hstale⟩ := h.idleWhenDone hb
    have hpass : Registers (passTime s) := by
      rw [passTime_eq]
      exact hreg.of_eq rfl rfl rfl rfl rfl rfl
    rw [ht]
    exact hpass.inv_of_over (by rw [passTime_eq]; exact hph) (by rw [passTime_eq]; exact htodo)
      (by rw [passTime_eq]; exact hstale)

end Sys2Proof.Machine

/-! ### The device's side of a run -/

namespace Sys2Proof.Machine

/-! #### The shadow after a list of events -/

@[simp] theorem Shadow.seeAll_nil (p : Params) (d : Shadow) : d.seeAll p [] = d := rfl

@[simp] theorem Shadow.seeAll_cons (p : Params) (d : Shadow) (e : Event) (es : List Event) :
    d.seeAll p (e :: es) = (d.see p e).seeAll p es := rfl

@[simp] theorem Shadow.seeAll_append (p : Params) (d : Shadow) (es fs : List Event) :
    d.seeAll p (es ++ fs) = (d.seeAll p es).seeAll p fs := List.foldl_append

/-- Events added to the trace are what the shadow sees next. -/
theorem shadow_of_trace (p : Params) {s t : State} {es : List Event} (hdev : t.dev0 = s.dev0)
    (htrace : t.trace = s.trace ++ es) : t.shadow p = (s.shadow p).seeAll p es := by
  simp [State.shadow, hdev, htrace]

/-- With nothing pending there is nothing to latch and nothing to lose. -/
theorem Shadow.latch_of_noPending {d : Shadow} (h : d.pend = none) : d.latch = d := by
  simp [Shadow.latch, h]

theorem Shadow.losePending_of_noPending {d : Shadow} (h : d.pend = none) : d.losePending = d := by
  simp [Shadow.losePending, h]

/-- Log entries tell nothing of the device. -/
theorem Shadow.seeAll_statusEvents (p : Params) (d : Shadow) (st : Status) : d.seeAll p (statusEvents st) = d := by
  cases st <;> rfl

/-! #### Windows -/

/-- What the shift register holds after these bytes: they follow those before, or are lost with one that
failed (R60, R63). -/
def Shadow.shifted : Option (List Byte) → List Byte → List Status → Option (List Byte)
  | sr, b :: bs, .ok :: sts => Shadow.shifted (sr.map (· ++ [b])) bs sts
  | _, _ :: bs, .fail :: sts => Shadow.shifted none bs sts
  | sr, _, _ => sr

/-- With every answer ok the register holds all the bytes. -/
theorem Shadow.shifted_of_ok (bs before : List Byte) (sts : List Status) (hlen : sts.length = bs.length)
    (hok : ∀ st ∈ sts, st = .ok) : Shadow.shifted (some before) bs sts = some (before ++ bs) := by
  induction bs generalizing before sts with
  | nil => simp [Shadow.shifted]
  | cons b bs ih =>
    cases sts with
    | nil => simp at hlen
    | cons st sts =>
      obtain rfl : st = .ok := hok st List.mem_cons_self
      have hrest := ih (before ++ [b]) sts (by simpa using hlen) fun st hst => hok st (List.mem_cons_of_mem _ hst)
      simpa [Shadow.shifted] using hrest

/-- In an open window the transmits fill the shift register and change nothing else of the protocol (R60, R63). -/
theorem Shadow.seeAll_txEvents (p : Params) (bs : List Byte) (sts : List Status) (d : Shadow) (hopen : d.ce = 0)
    (hpend : d.pend = none) :
    ∃ settled, d.seeAll p (txEvents p bs sts) =
      { d with sr := Shadow.shifted d.sr bs sts, txSettled := settled } := by
  induction bs generalizing sts d with
  | nil => exact ⟨d.txSettled, by simp [txEvents, Shadow.shifted]⟩
  | cons b bs ih =>
    cases sts with
    | nil => exact ⟨d.txSettled, by simp [txEvents, Shadow.shifted]⟩
    | cons st sts =>
      obtain ⟨sr, hsee, hsr⟩ : ∃ sr, d.see p (.tx p.dispCh b st) = { d with sr := sr, txSettled := false } ∧
          Shadow.shifted d.sr (b :: bs) (st :: sts) = Shadow.shifted sr bs sts := by
        cases st with
        | ok => exact ⟨_, by simp [Shadow.see, Shadow.onTx, Shadow.latch_of_noPending hpend, hopen], rfl⟩
        | fail => exact ⟨_, by simp [Shadow.see, Shadow.onTx, Shadow.losePending_of_noPending hpend, hopen], rfl⟩
      obtain ⟨settled, hrest⟩ := ih sts { d with sr := sr, txSettled := false } hopen hpend
      refine ⟨settled, ?_⟩
      simp only [txEvents, Shadow.seeAll_cons, Shadow.seeAll_append, seeAll_statusEvents, hsee, hrest, hsr]

/-- The shadow when a window has closed: its bytes wait for their latch strobe (R61). -/
def Shadow.awaitingLatch (d : Shadow) (p : Params) (sp : Space) (bytes : Option (List Byte)) : Shadow :=
  { d with
    ce := 1, rs := some (spaceLevel p sp), sel := sp, sr := bytes, pend := some (sp, bytes)
    rsSettled := true, txSettled := true }

/-- A window on a device between windows, up to its dummy byte: the delays of R59 and R61 are kept. -/
theorem Shadow.seeAll_windowEvents {d : Shadow} (h : d.Quiet) (sp : Space) (payload : List Byte)
    (sts : List Status) (last : Status) (hlen : sts.length = payload.length) :
    d.seeAll deployed (windowEvents deployed sp payload (sts ++ [last])) =
      (d.awaitingLatch deployed sp (Shadow.shifted (some []) payload sts)).onTx 0 last := by
  obtain ⟨hce, hpend, hgood⟩ := h
  have hsettle : 1 ≤ deployed.tSettleUs := Nat.le_add_right _ _
  have hpost : 10 ≤ deployed.tPostUs := Nat.le_add_right _ _
  have hsel : (if spaceLevel deployed sp = deployed.rsCtrl then Space.ctrl else .dot) = sp := by
    cases sp <;> rfl
  -- the space selected and the window opened
  obtain ⟨opened, hopened, hsee⟩ : ∃ opened : Shadow,
      opened = { d with
        ce := 0, rs := some (spaceLevel deployed sp), sel := sp, sr := some [], rsSettled := true
        txSettled := d.txSettled || 10 ≤ deployed.tSettleUs } ∧
      d.seeAll deployed [.pin .rs (spaceLevel deployed sp), .delayUs deployed.tSettleUs, .pin .ce 0] = opened := by
    refine ⟨_, rfl, ?_⟩
    simp [Shadow.see, Shadow.onRs, Shadow.onCe, hce, hgood, hsettle, hsel]
  obtain ⟨settled, hsent⟩ :=
    opened.seeAll_txEvents deployed payload sts (by rw [hopened]) (by rw [hopened]; exact hpend)
  -- the delay, the rise and the dummy byte
  have htake : (sts ++ [last]).take payload.length = sts := by rw [← hlen, List.take_left]
  have hdrop : (sts ++ [last]).drop payload.length = [last] := by rw [← hlen, List.drop_left]
  simp only [windowEvents, Shadow.seeAll_append, hsee, htake, hdrop, hsent, txEvents, Shadow.seeAll_cons,
    Shadow.seeAll_nil, Shadow.seeAll_statusEvents]
  simp [Shadow.see, Shadow.onCe, hopened, hgood, hpost, Shadow.awaitingLatch]

theorem Shadow.latch_protocol (d : Shadow) : d.latch.ce = d.ce ∧ d.latch.pend = none ∧ d.latch.bad = d.bad := by
  unfold Shadow.latch
  split
  · exact ⟨rfl, ‹_›, rfl⟩
  · exact ⟨rfl, rfl, rfl⟩
  · exact ⟨rfl, rfl, rfl⟩

theorem Shadow.losePending_protocol (d : Shadow) :
    d.losePending.ce = d.ce ∧ d.losePending.pend = none ∧ d.losePending.bad = d.bad := by
  unfold Shadow.losePending
  split
  · exact ⟨rfl, ‹_›, rfl⟩
  · rename_i sp _ _
    cases sp <;> exact ⟨rfl, rfl, rfl⟩

/-- A byte after the rise of chip enable ends the wait, latched or lost (R61 to R63). -/
theorem Shadow.quiet_onTx {d : Shadow} (hce : d.ce = 1) (hgood : d.bad = false) (b : Byte) (st : Status) :
    (d.onTx b st).Quiet := by
  cases st with
  | ok =>
    obtain ⟨hce', hpend', hgood'⟩ := d.latch_protocol
    exact ⟨hce'.trans hce, hpend', hgood'.trans hgood⟩
  | fail =>
    obtain ⟨hce', hpend', hgood'⟩ := d.losePending_protocol
    exact ⟨hce'.trans hce, hpend', hgood'.trans hgood⟩

/-- A window leaves a device that was between windows between windows, whatever the answers. -/
theorem Shadow.Quiet.seeAll_windowEvents {d : Shadow} (h : d.Quiet) (sp : Space) (payload : List Byte)
    {sts : List Status} (hlen : sts.length = payload.length + 1) :
    (d.seeAll deployed (windowEvents deployed sp payload sts)).Quiet := by
  obtain ⟨sent, last, rfl⟩ := List.eq_nil_or_concat' sts |>.resolve_left fun hnil => by simp [hnil] at hlen
  rw [Shadow.seeAll_windowEvents h sp payload sent last (by simpa using hlen)]
  exact Shadow.quiet_onTx (d := d.awaitingLatch deployed sp _) rfl h.good 0 last

theorem shadow_windowDone (p : Params) (sp : Space) (payload : List Byte) (s : State) :
    (windowDone p sp payload s).shadow p =
      (s.shadow p).seeAll p (windowEvents p sp payload (answersAhead p (payload.length + 1) s)) :=
  shadow_of_trace p (by simp [windowDone]) rfl

/-! #### Runs that leave the device between windows -/

/-- Run on a device between windows, these actions leave it between windows, however the run ends. -/
def LeavesQuiet (script : List Action) : Prop :=
  ∀ s : State, s.inputs = [] → (s.shadow deployed).Quiet →
    ((runScript deployed script s).1.shadow deployed).Quiet

/-- An action that touches no pin of the device and sends nothing: its events leave a device between windows
as quiet as it was. -/
def Action.apart : Action → Bool
  | .selectSpace _ | .openWindow | .send _ _ | .closeWindow | .dummy | .driveRst _ => false
  | _ => true

theorem quiet_seeAll_logEvents {d : Shadow} (h : d.Quiet) (e : Err) : (d.seeAll deployed e.logEvents).Quiet := by
  cases hk : e.logKind <;> simpa [Err.logEvents, hk, Shadow.see] using h

theorem quiet_endOperation {s : State} (h : (s.shadow deployed).Quiet) :
    ((endOperation deployed s).shadow deployed).Quiet := h

theorem quiet_raise {s : State} (h : (s.shadow deployed).Quiet) (e : Err) :
    ((raise deployed e s).shadow deployed).Quiet := by
  rw [shadow_of_trace (s := s) (t := raise deployed e s) (es := e.logEvents) deployed rfl rfl]
  exact quiet_seeAll_logEvents h e

theorem quiet_doAction {a : Action} {s t : State} (ha : a.apart = true) (h : (s.shadow deployed).Quiet)
    (ht : (doAction deployed a s).Reaches t) : (t.shadow deployed).Quiet := by
  rw [shadow_of_trace deployed (doAction_frame ht).dev0 (doAction_effect ht).1.trace]
  obtain ⟨hce, hpend, hgood⟩ := h
  cases a with
  | selectSpace | openWindow | send | closeWindow | dummy | driveRst => cases ha
  | gate ch => simp only [actionEvents]; split <;> exact ⟨hce, hpend, hgood⟩
  | warn w => cases w <;> exact ⟨hce, hpend, hgood⟩
  | _ => exact ⟨hce, hpend, hgood⟩

theorem LeavesQuiet.nil : LeavesQuiet [] := fun _ _ h => quiet_endOperation h

theorem LeavesQuiet.cons {a : Action} {rest : List Action} (ha : a.apart = true) (h : LeavesQuiet rest) :
    LeavesQuiet (a :: rest) := by
  intro s hin hq
  have reached (t : State) (ht : (doAction deployed a s).Reaches t) : (t.shadow deployed).Quiet :=
    quiet_doAction ha hq ht
  cases hd : doAction deployed a s with
  | goesOn t =>
    have ht : (doAction deployed a s).Reaches t := by rw [hd]; rfl
    rw [runScript_cons_goesOn hin hd]
    exact h t ((doAction_effect ht).2.inputs.trans hin) (reached t ht)
  | raises e t =>
    rw [runScript_cons_raises hin hd]
    exact quiet_raise (reached t (by rw [hd]; rfl)) e
  | breaks f t =>
    rw [runScript_cons_breaks hin hd]
    exact reached t (by rw [hd]; rfl)

theorem LeavesQuiet.window {rest : List Action} (h : LeavesQuiet rest) (sp : Space) (data : List Datum) :
    LeavesQuiet (Machine.window deployed sp data ++ rest) := by
  intro s hin hq
  rw [runScript_window deployed sp data rest s hin]
  refine h _ ((windowDone_inputs ..).trans hin) ?_
  rw [shadow_windowDone]
  exact hq.seeAll_windowEvents sp _ (by simp)

/-- A pulse of the reset pin (R171, R173). -/
def resetPulse (p : Params) : List Action := [.driveRst 0, .delayMs p.tResetMs, .driveRst 1]

/-- All that a reset pulse does, with no input of the host pending. -/
theorem runScript_resetPulse (p : Params) (rest : List Action) (s : State) (h : s.inputs = []) :
    runScript p (resetPulse p ++ rest) s =
      runScript p rest
        { s with rst := 1, trace := s.trace ++ [.pin .rst 0, .delayMs p.tResetMs, .pin .rst 1] } := by
  simp only [resetPulse, List.cons_append, List.nil_append]
  rw [runScript_cons_goesOn h rfl, runScript_cons_goesOn (by simpa [drivePin] using h) rfl,
    runScript_cons_goesOn (by simpa [drivePin] using h) rfl]
  simp [drivePin, emit]

/-- The pulse is long enough for R64. -/
theorem LeavesQuiet.resetPulse {rest : List Action} (h : LeavesQuiet rest) :
    LeavesQuiet (Machine.resetPulse deployed ++ rest) := by
  intro s hin hq
  have hhold : 10 ≤ deployed.tResetMs := Nat.le_add_right _ _
  rw [runScript_resetPulse deployed rest s hin]
  refine h _ hin ?_
  have hsee := shadow_of_trace (s := s) deployed rfl
    (t := { s with rst := 1, trace := s.trace ++ [.pin .rst 0, .delayMs deployed.tResetMs, .pin .rst 1] }) rfl
  rw [hsee]
  obtain ⟨hce, hpend, hgood⟩ := hq
  refine ⟨?_, ?_, ?_⟩ <;> simp [Shadow.see, Shadow.onRst, hce, hgood, hhold]

theorem LeavesQuiet.scrollFrame {rest : List Action} (h : LeavesQuiet rest) (a n : Nat) :
    LeavesQuiet (Machine.scrollFrame deployed a n ++ rest) :=
  .cons rfl (h.window .dot frameData)

theorem LeavesQuiet.scrollStep {rest : List Action} (h : LeavesQuiet rest) (b len w : Nat) :
    LeavesQuiet (Machine.scrollStep deployed b len w ++ rest) := by
  rw [Machine.scrollStep, List.cons_append, List.cons_append, List.append_assoc, ← List.cons_append]
  refine .cons rfl (.scrollFrame ?_ (b + w) 4)
  split
  · exact .cons rfl h
  · exact h

theorem LeavesQuiet.scrollScript (b len : Nat) : LeavesQuiet (Machine.scrollScript deployed b len) := by
  refine .cons rfl ?_
  split
  · have hframe := LeavesQuiet.nil.scrollFrame b len
    rwa [List.append_nil] at hframe
  · induction List.range (len - 3) with
    | nil => exact .nil
    | cons w ws ih => exact ih.scrollStep b len w

/-- Every operation's script leaves the device between windows. -/
theorem Scripted.leavesQuiet {s : State} {i : Instr} {script : List Action} (h : Scripted deployed s i script) :
    LeavesQuiet script := by
  have hwindow (sp : Space) (data : List Datum) : LeavesQuiet (window deployed sp data) := by
    have hw := LeavesQuiet.nil.window sp data
    rwa [List.append_nil] at hw
  have hconfigure (ch : Nat) (pp : Word) {rest : List Action} (hrest : LeavesQuiet rest) :
      LeavesQuiet (configureScript deployed ch pp ++ rest) :=
    .cons rfl (.cons rfl (.cons rfl (.cons rfl hrest)))
  cases h with
  | seldiv => exact .cons rfl (.cons rfl .nil)
  | configure ch pp => exact hconfigure _ pp .nil
  | init pp =>
    simp only [initScript, List.append_assoc]
    exact .cons rfl (hconfigure _ pp ((hwindow _ _).window _ _).resetPulse)
  | control => exact hwindow _ _
  | clear => exact hwindow _ _
  | glyphs => exact .cons rfl (hwindow _ _)
  | scroll => exact .scrollScript _ _

/-- Settles O56: a refusal only logs, and every script is made of windows, reset pulses and actions apart from
the device. -/
theorem everyOperationKeepsTheProtocol : Obligations.EveryOperationKeepsTheProtocol := by
  intro i s t hin hq h
  rcases exec_next_cases h with ⟨e, k, -, rfl⟩ | ⟨script, hscr, hrun⟩
  · exact quiet_raise hq e
  · have hquiet := hscr.leavesQuiet s hin hq
    rwa [hrun] at hquiet

end Sys2Proof.Machine

/-! ### Frames and the three primitive writes -/

namespace Sys2Proof.Machine

/-! #### Frames -/

theorem frame_getD (p : Params) (f : Four) {i : Nat} (hi : i < 20) : (frame p f).getD i 0 = frameByte p f i := by
  simp [frame, List.getD_eq_getElem?_getD, hi]

/-- Column `j` of character `i`: the linear address is `5c + j` (R43, R85). -/
theorem frameByte_column (p : Params) (f : Four) {i j : Nat} (hj : j < 5) :
    frameByte p f (5 * i + j) = p.glyph (f.get i).toNat j := by
  have hchar : (5 * i + j) / 5 = i := by omega
  have hcol : (5 * i + j) % 5 = j := by omega
  have haddr : (5 * (f.get i).toNat + j) / 5 = (f.get i).toNat := by omega
  have haddr' : (5 * (f.get i).toNat + j) % 5 = j := by omega
  rw [frameByte, readGlyph, hchar, hcol, haddr, haddr']

/-- The space character has only dark columns (R48). -/
theorem frame_spaces : frame deployed ⟨32, 32, 32, 32⟩ = clearFrame := by
  refine List.eq_replicate_iff.2 ⟨frame_length .., fun b hb => ?_⟩
  obtain ⟨i, -, rfl⟩ := List.mem_map.1 hb
  have hspace : Four.get ⟨32, 32, 32, 32⟩ (i / 5) = 32 := by unfold Four.get; split <;> rfl
  have hsplit : frameByte deployed ⟨32, 32, 32, 32⟩ i = deployed.glyph 32 (i % 5) := by
    conv_lhs => rw [← Nat.div_add_mod i 5]
    rw [frameByte_column _ _ (Nat.mod_lt _ (by decide)), hspace]
    rfl
  rw [hsplit]
  simp [deployed]

/-- Settles O33. -/
theorem frameOrder : Obligations.FrameOrder := by
  refine ⟨fun f => ⟨frame_length deployed f, fun i j hi hj => ?_⟩, frame_spaces, rfl⟩
  rw [frame_getD _ _ (by omega), frameByte_column _ _ hj]

/-! #### What each write does -/

/-- A window whose characters were loaded first; loading them changes `CH4` only. -/
theorem WroteWindow.of_loadChars {p : Params} {sp : Space} {payload : List Byte} {f : Four} {s t : State}
    (h : WroteWindow p sp payload { s with ch4 := f } t) : WroteWindow p sp payload s t := by
  have hahead : answersAhead p (payload.length + 1) { s with ch4 := f } = answersAhead p (payload.length + 1) s :=
    answersAhead_congr p _ rfl rfl
  obtain ⟨htrace, htxf, herr, hrs, hce, hph, hended, ⟨hhost, htransport, hwarn, hres, hrst⟩⟩ := h
  rw [hahead] at htrace htxf
  exact ⟨htrace, htxf, herr, hrs, hce, hph, hended,
    ⟨⟨hhost.op, hhost.a, hhost.b, hhost.text, hhost.port, hhost.inputs, hhost.dev0⟩,
      ⟨htransport.gates, htransport.cfgs⟩, ⟨hwarn.low, hwarn.high⟩, hres, hrst⟩⟩

/-- The checks of `WriteGlyphs` passed (R151). -/
theorem planGlyphs_of_glyphs {p : Params} {f : Four} {s : State} (hv : channelValid s p.dispCh = true)
    (hg : ∀ c ∈ [f.c0, f.c1, f.c2, f.c3], c.toNat < p.glyphCount) :
    planGlyphs p f s = .ok (.loadChars f :: frameWindow p) := by
  have hall : haveGlyphs p f = true := by simpa [haveGlyphs, hasGlyph, and_assoc] using hg
  simp [planGlyphs, hv, hall]

/-- A code with no glyph fails them (R46, R151). -/
theorem planGlyphs_of_badGlyph {p : Params} {f : Four} {s : State} (hv : channelValid s p.dispCh = true)
    (hg : ∃ c ∈ [f.c0, f.c1, f.c2, f.c3], p.glyphCount ≤ c.toNat) : planGlyphs p f s = .error .glyphIndex := by
  have hsome : haveGlyphs p f = false := by
    rw [Bool.eq_false_iff]
    intro hall
    obtain ⟨c, hc, hbad⟩ := hg
    have hgood : ∀ c ∈ [f.c0, f.c1, f.c2, f.c3], c.toNat < p.glyphCount := by
      simpa [haveGlyphs, hasGlyph, and_assoc] using hall
    exact absurd (hgood c hc) (by omega)
  simp [planGlyphs, hv, hsome]

/-- A script that is one window writes it. -/
theorem perform_window (p : Params) (sp : Space) (data : List Datum) (s : State) (hin : s.inputs = []) :
    ∃ t, perform p (.ok (window p sp data)) s = (t, none) ∧ WroteWindow p sp (data.map (datumByte p · s)) s t :=
  ⟨_, runScript_window_end p sp data s hin, wroteWindow_of_windowDone ..⟩

/-- `WriteGlyphs` writes the frame of its characters (R151). -/
theorem perform_planGlyphs {p : Params} {f : Four} {s : State} (hin : s.inputs = [])
    (hv : channelValid s p.dispCh = true) (hg : ∀ c ∈ [f.c0, f.c1, f.c2, f.c3], c.toNat < p.glyphCount) :
    ∃ t, perform p (planGlyphs p f s) s = (t, none) ∧ WroteWindow p .dot (frame p f) s t := by
  obtain ⟨t, hrun, hwrote⟩ := perform_window p .dot frameData { s with ch4 := f } hin
  rw [map_datumByte_frameData] at hwrote
  refine ⟨t, ?_, hwrote.of_loadChars⟩
  rw [planGlyphs_of_glyphs hv hg, perform, runScript_cons_goesOn hin rfl]
  exact hrun

/-- An operation whose plan runs to a next state. -/
theorem exec_of_perform {i : Instr} {s t : State} (h : perform deployed (planOf deployed i s) s = (t, none)) :
    exec i s = .next t := by
  rw [exec_eq_perform, h]
  rfl

/-- An operation whose checks fail is refused (R206). -/
theorem exec_refused {i : Instr} {s : State} {e : Err} (h : planOf deployed i s = .error e) :
    ∃ t, exec i s = .next t ∧ RefusedWith e s t :=
  ⟨_, exec_of_perform (by rw [h]; rfl), refusedWith_raise deployed e s⟩

theorem exec_wrctl_wroteWindow (pwm peak : Byte) (sleep : BitVec 1) {s : State} (hin : s.inputs = [])
    (hv : channelValid s deployed.dispCh = true) :
    ∃ t, exec (.wrctl pwm peak sleep) s = .next t ∧ WroteWindow deployed .ctrl [controlByte pwm peak sleep] s t := by
  obtain ⟨t, hrun, hwrote⟩ := perform_window deployed .ctrl [.byte (controlByte pwm peak sleep)] s hin
  have hplan : planOf deployed (.wrctl pwm peak sleep) s =
      .ok (controlWindow deployed (controlByte pwm peak sleep)) := by
    simp [planOf, planWrctl, hv]
  exact ⟨t, exec_of_perform (by rw [hplan]; exact hrun), hwrote⟩

theorem exec_wrglyph_wroteWindow {c0 c1 c2 c3 : Byte} {s : State} (hin : s.inputs = [])
    (hv : channelValid s deployed.dispCh = true) (hg : ∀ c ∈ [c0, c1, c2, c3], c.toNat < deployed.glyphCount) :
    ∃ t, exec (.wrglyph c0 c1 c2 c3) s = .next t ∧
      WroteWindow deployed .dot (frame deployed ⟨c0, c1, c2, c3⟩) s t := by
  obtain ⟨t, hrun, hwrote⟩ := perform_planGlyphs (f := ⟨c0, c1, c2, c3⟩) hin hv hg
  exact ⟨t, exec_of_perform hrun, hwrote⟩

theorem exec_clear_wroteWindow {s : State} (hin : s.inputs = []) (hv : channelValid s deployed.dispCh = true) :
    ∃ t, exec .clear s = .next t ∧ WroteWindow deployed .dot clearFrame s t := by
  obtain ⟨t, hrun, hwrote⟩ := perform_window deployed .dot (clearFrame.map Datum.byte) s hin
  rw [map_datumByte_byte] at hwrote
  have hplan : planOf deployed .clear s = .ok (clearWindow deployed) := by simp [planOf, planClear, hv]
  exact ⟨t, exec_of_perform (by rw [hplan]; exact hrun), hwrote⟩

/-- Settles O35: the checks pass and the one window is the frame's, or they fail before any event. -/
theorem wrglyphWritesTheFrame : Obligations.WrglyphWritesTheFrame := by
  intro c0 c1 c2 c3 s hin hv
  exact ⟨exec_wrglyph_wroteWindow hin hv, fun hbad => exec_refused (planGlyphs_of_badGlyph hv hbad)⟩

/-! #### What the device holds after a write -/

/-- A write adds its window's events to what the device has seen. -/
theorem WroteWindow.shadow {p : Params} {sp : Space} {payload : List Byte} {s t : State}
    (h : WroteWindow p sp payload s t) :
    t.shadow p = (s.shadow p).seeAll p (windowEvents p sp payload (answersAhead p (payload.length + 1) s)) :=
  shadow_of_trace p h.frame.host.dev0 h.trace

/-- With every answer ok the payload is latched into the space written (R60 to R62). -/
theorem WroteWindow.shadow_of_ok {sp : Space} {payload : List Byte} {s t : State}
    (h : WroteWindow deployed sp payload s t) (hq : (s.shadow deployed).Quiet)
    (hok : ∀ st ∈ answersAhead deployed (payload.length + 1) s, st = .ok) :
    (t.shadow deployed).Quiet ∧
      t.shadow deployed = ((s.shadow deployed).awaitingLatch deployed sp (some payload)).onTx 0 .ok := by
  rw [h.shadow]
  refine ⟨hq.seeAll_windowEvents sp payload (by simp), ?_⟩
  rw [answersAhead_add deployed payload.length 1 s] at hok ⊢
  obtain ⟨hsent, hlast⟩ := List.forall_mem_append.1 hok
  have hone : answersAhead deployed 1 (afterAnswers payload.length s) = [.ok] :=
    congrArg (fun st => [st]) (hlast _ List.mem_cons_self)
  rw [hone, Shadow.seeAll_windowEvents hq sp payload _ .ok (by simp),
    Shadow.shifted_of_ok payload [] _ (by simp) hsent, List.nil_append]

/-- Bit 7 of a control byte is clear, so that the device takes it (R62, R80). -/
theorem controlByte_bit7 (pwm peak : Byte) (sleep : BitVec 1) : (controlByte pwm peak sleep).extractLsb' 7 1 = 0 := by
  unfold controlByte
  generalize peak.extractLsb' 0 2 = i
  generalize pwm.extractLsb' 0 4 = b
  revert sleep i b
  decide

theorem WroteWindow.ctrl_holds {b : Byte} {s t : State} (h : WroteWindow deployed .ctrl [b] s t)
    (hq : (s.shadow deployed).Quiet) (hb : b.extractLsb' 7 1 = 0)
    (hok : ∀ st ∈ answersAhead deployed 2 s, st = .ok) :
    (t.shadow deployed).Quiet ∧ (t.shadow deployed).ctrl = some b ∧
      (t.shadow deployed).dot = (s.shadow deployed).dot := by
  obtain ⟨hquiet, hshadow⟩ := h.shadow_of_ok hq hok
  refine ⟨hquiet, ?_, ?_⟩ <;> rw [hshadow]
  · exact if_pos hb
  · rfl

theorem WroteWindow.dot_holds {payload : List Byte} {s t : State} (h : WroteWindow deployed .dot payload s t)
    (hq : (s.shadow deployed).Quiet) (hlen : payload.length = 20)
    (hok : ∀ st ∈ answersAhead deployed 21 s, st = .ok) :
    (t.shadow deployed).Quiet ∧ (t.shadow deployed).dot = some payload ∧
      (t.shadow deployed).ctrl = (s.shadow deployed).ctrl := by
  obtain ⟨hquiet, hshadow⟩ := h.shadow_of_ok hq (by rwa [hlen])
  refine ⟨hquiet, ?_, ?_⟩ <;> rw [hshadow]
  · exact if_pos hlen
  · rfl

/-- Settles O55: each write is one window, and its payload one the device takes. -/
theorem deviceHoldsWhatWasWritten : Obligations.DeviceHoldsWhatWasWritten := by
  intro s hin hv hq
  refine ⟨fun pwm peak sleep hok => ?_, fun c0 c1 c2 c3 hok hg => ?_, fun hok => ?_⟩
  · obtain ⟨t, hexec, hwrote⟩ := exec_wrctl_wroteWindow pwm peak sleep hin hv
    exact ⟨t, hexec, hwrote.ctrl_holds hq (controlByte_bit7 pwm peak sleep) hok⟩
  · obtain ⟨t, hexec, hwrote⟩ := exec_wrglyph_wroteWindow hin hv hg
    exact ⟨t, hexec, hwrote.dot_holds hq (frame_length ..) hok⟩
  · obtain ⟨t, hexec, hwrote⟩ := exec_clear_wroteWindow hin hv
    exact ⟨t, hexec, hwrote.dot_holds hq rfl hok⟩

end Sys2Proof.Machine

/-! ### Text memory -/

namespace Sys2Proof.Machine

/-! #### Strings and host writes -/

/-- Settles O42: `StrLen` is the first hit of a search over the places up to 255. -/
theorem stringLengthIsTheFirstTerminator : Obligations.StringLengthIsTheFirstTerminator := by
  intro m b n hb
  unfold strLen
  constructor
  · rw [List.find?_range_eq_some]
    simp only [decide_eq_true_eq, List.mem_range, Bool.not_eq_true', decide_eq_false_iff_not]
    exact ⟨fun ⟨hz, hn, hmin⟩ => ⟨by omega, hz, hmin⟩, fun ⟨hn, hz, hmin⟩ => ⟨hz, by omega, hmin⟩⟩
  · rw [List.find?_range_eq_none]
    simp only [Bool.not_eq_true', decide_eq_false_iff_not]
    exact ⟨fun h k hk => h k (by omega), fun h k hk => h k (by omega)⟩

/-- What a cell has held after a host write: while `BUSY` the replaced byte too (log 13). -/
theorem heldBytes_hostWrite (a : BitVec 8) (v : Byte) (s : State) (hwf : Memory.wf s.txt = true) :
    heldBytes (hostWrite a v s) a.toNat =
      if s.busy then v :: heldBytes s a.toNat else v :: (heldBytes s a.toNat).tail := by
  have hread : Memory.read (hostWrite a v s).txt a.toNat = v := Memory.read_write_same s.txt a.toNat v hwf
  rw [heldBytes, hread]
  cases hb : s.busy <;> simp [hostWrite, hb, heldBytes]

/-- Settles O48: the host's write lands. -/
theorem hostWriteOfText : Obligations.HostWriteOfText := by
  intro s a v rest hwf hin
  refine ⟨_, step_of_due hin, Memory.read_write_same _ _ _ hwf, fun x hx => Memory.read_write_other _ _ _ _ hx,
    Memory.write_wf _ _ _ hwf a.isLt, rfl, ?_⟩
  exact heldBytes_hostWrite a v { s with inputs := rest } hwf

/-! #### Reading a text that changes -/

/-- A read gives one of the bytes the cell has held (U14). -/
theorem readText_mem_heldBytes (p : Params) (a : Nat) (s : State) : (readText p a s).1 ∈ heldBytes s a := by
  unfold readText
  split
  · simp [*]
  · have hpos : 0 < (heldBytes s a).length := by simp [heldBytes]
    have hpick := Nat.mod_lt (p.freePick s.fresh) hpos
    rw [List.getD_eq_getElem _ _ hpick]
    exact List.getElem_mem hpick

/-- Settles O50. -/
theorem changedTextReadsOldOrNew : Obligations.ChangedTextReadsOldOrNew := fun s a =>
  ⟨readText_mem_heldBytes deployed a s, readText_of_unchanged deployed a s⟩

/-- A character of a frame is read after draws for those before it. -/
theorem readFrame_get (p : Params) (a n : Nat) (s : State) {k : Nat} (hk : k < 4) :
    ∃ fresh, (readFrame p a n s).1.get k = (frameChar p a n k { s with fresh := fresh }).1 := by
  simp only [readFrame]
  interval_cases k
  · exact ⟨s.fresh, rfl⟩
  · exact ⟨_, by rw [frameChar_eq p a n 0]; rfl⟩
  · exact ⟨_, by rw [frameChar_eq p a n 1, frameChar_eq p a n 0]; rfl⟩
  · exact ⟨_, by rw [frameChar_eq p a n 2, frameChar_eq p a n 1, frameChar_eq p a n 0]; rfl⟩

/-- A frame's own characters are bytes their cells have held (U14). -/
theorem readFrame_get_mem (p : Params) (a n : Nat) (s : State) {k : Nat} (hk : k < 4) (hn : k < n) :
    (readFrame p a n s).1.get k ∈ heldBytes s (a + k) := by
  obtain ⟨fresh, hget⟩ := readFrame_get p a n s hk
  rw [hget, frameChar, if_pos hn]
  exact readText_mem_heldBytes p (a + k) { s with fresh := fresh }

/-- The rest of a frame is spaces (R178). -/
theorem readFrame_get_space (p : Params) (a n : Nat) (s : State) {k : Nat} (hk : k < 4) (hn : n ≤ k) :
    (readFrame p a n s).1.get k = space := by
  obtain ⟨fresh, hget⟩ := readFrame_get p a n s hk
  rw [hget, frameChar, if_neg (by omega)]

theorem badCode_eq_none_iff_get {p : Params} {f : Four} :
    badCode p f = none ↔ ∀ k, k < 4 → (f.get k).toNat < p.glyphCount := by
  rw [badCode_eq_none]
  constructor
  · intro h k hk
    interval_cases k <;> exact h _ (by simp [Four.get])
  · intro h
    simpa using ⟨h 0 (by decide), h 1 (by decide), h 2 (by decide), h 3 (by decide)⟩

/-- A bad code is one of the four, and has no glyph. -/
theorem badCode_eq_some {p : Params} {f : Four} {c : Byte} (h : badCode p f = some c) :
    p.glyphCount ≤ c.toNat ∧ ∃ k, k < 4 ∧ f.get k = c := by
  refine ⟨by simpa [hasGlyph] using List.find?_some h, ?_⟩
  have hmem := List.mem_of_find?_eq_some h
  simp only [List.mem_cons, List.not_mem_nil, or_false] at hmem
  rcases hmem with rfl | rfl | rfl | rfl
  · exact ⟨0, by decide, rfl⟩
  · exact ⟨1, by decide, rfl⟩
  · exact ⟨2, by decide, rfl⟩
  · exact ⟨3, by decide, rfl⟩

/-- One action that goes on, with no input of the host due. -/
theorem runScript_notDue_goesOn {p : Params} {a : Action} {rest : List Action} {s t : State}
    (hdue : inputDue s = false) (ha : doAction p a (passTime s) = .goesOn t) :
    runScript p (a :: rest) s = runScript p rest t := by
  simp [runScript, hdue, ha]

theorem runScript_notDue_raises {p : Params} {a : Action} {rest : List Action} {s t : State} {e : Err}
    (hdue : inputDue s = false) (ha : doAction p a (passTime s) = .raises e t) :
    runScript p (a :: rest) s = (raise p e t, none) := by
  simp [runScript, hdue, ha]

theorem runScript_notDue_breaks {p : Params} {a : Action} {rest : List Action} {s t : State} {f : Fault}
    (hdue : inputDue s = false) (ha : doAction p a (passTime s) = .breaks f t) :
    runScript p (a :: rest) s = (t, some f) := by
  simp [runScript, hdue, ha]

/-- The state in which a paused operation's next action is done. -/
theorem passTime_of_paused (s : State) :
    passTime { s with todo := [] } = { s with todo := [], inputs := (passTime s).inputs } := by
  unfold passTime
  dsimp only
  split <;> rfl

/-- A frame with a character that can only be a code with no glyph breaks the run, at such a character (U14). -/
theorem loadFrame_breaks {p : Params} {a n k : Nat} {s : State} (hspace : hasGlyph p space = true) (hn : n ≤ 4)
    (hk : k < n) (hbad : ∀ v ∈ heldBytes s (a + k), p.glyphCount ≤ v.toNat) :
    ∃ c t, loadFrame p a n s = .breaks (.glyphPastTable c) t ∧ p.glyphCount ≤ c.toNat ∧
      ∃ j, j < n ∧ c ∈ heldBytes s (a + j) := by
  cases hcode : badCode p (readFrame p a n s).1 with
  | none =>
    have hlt := badCode_eq_none_iff_get.1 hcode k (by omega)
    exact absurd (hbad _ (readFrame_get_mem p a n s (by omega) hk)) (by omega)
  | some c =>
    obtain ⟨hc, j, hj, hget⟩ := badCode_eq_some hcode
    have hjn : j < n := by
      by_contra hnot
      rw [readFrame_get_space p a n s hj (by omega)] at hget
      simp only [hasGlyph, hget, decide_eq_true_eq] at hspace
      omega
    exact ⟨c, (readFrame p a n s).2, by simp only [loadFrame, hcode], hc, j, hjn,
      hget ▸ readFrame_get_mem p a n s hj hjn⟩

/-- A frame that can only read codes with glyphs is loaded (U14). -/
theorem loadFrame_goesOn {p : Params} {a n : Nat} {s : State} (hspace : hasGlyph p space = true)
    (hgood : ∀ k, k < n → ∀ v ∈ heldBytes s (a + k), v.toNat < p.glyphCount) :
    ∃ f fresh, loadFrame p a n s = .goesOn { s with ch4 := f, fresh := fresh } ∧
      (∀ k, k < 4 → k < n → f.get k ∈ heldBytes s (a + k)) ∧ ∀ k, k < 4 → n ≤ k → f.get k = space := by
  have hcode : badCode p (readFrame p a n s).1 = none := by
    refine badCode_eq_none_iff_get.2 fun k hk => ?_
    by_cases hkn : k < n
    · exact hgood k hkn _ (readFrame_get_mem p a n s hk hkn)
    · rw [readFrame_get_space p a n s hk (by omega)]
      simpa [hasGlyph] using hspace
  refine ⟨(readFrame p a n s).1, (readFrame p a n s).2.fresh, ?_, fun k hk hkn => readFrame_get_mem p a n s hk hkn,
    fun k hk hnk => readFrame_get_space p a n s hk hnk⟩
  simp only [loadFrame, hcode]
  rw [readFrame_eq]

/-- Settles O51: the paused operation's next action is the frame's load. -/
theorem changedTextPastTheTableFaults : Obligations.ChangedTextPastTheTableFaults := by
  intro s addr n rest hdue hb hn htodo
  have hdue' : inputDue { s with todo := [] } = false := hdue
  have hpass := passTime_of_paused s
  have hheld (a : Nat) : heldBytes (passTime { s with todo := [] }) a = heldBytes s a := by rw [hpass]; rfl
  simp only [← hheld]
  rw [step_of_busy hdue hb, htodo]
  refine ⟨fun ⟨k, hk, hbad⟩ => ?_, fun hgood => ?_⟩
  · obtain ⟨c, t, hload, hc, hown⟩ := loadFrame_breaks deployed_hasGlyph_space hn hk hbad
    exact ⟨c, congrArg runOutcome (runScript_notDue_breaks (a := .loadText addr n) hdue' hload), hc, hown⟩
  · obtain ⟨f, fresh, hload, hown, hpad⟩ := loadFrame_goesOn deployed_hasGlyph_space hgood
    refine ⟨f, _, fun k hk => hown k (by omega) hk, fun k hnk hk => hpad k hk hnk, ?_,
      congrArg runOutcome (runScript_notDue_goesOn (a := .loadText addr n) hdue' hload)⟩
    rw [hpass]

/-! #### A text write in mid-operation -/

/-- What the host can change besides the port, at other values. -/
def withHostSide (txt : Memory) (stale : List Host.Cell) (inputs : List HostInput) (s : State) : State :=
  { s with txt := txt, stale := stale, inputs := inputs }

/-- No action but a frame's load reads the text, and none reads the pending inputs (R44). -/
theorem doAction_withHostSide (p : Params) {act : Action} (hact : ∀ addr n, act ≠ .loadText addr n) (txt : Memory)
    (stale : List Host.Cell) (inputs : List HostInput) (s : State) :
    doAction p act (withHostSide txt stale inputs s) = (doAction p act s).map (withHostSide txt stale inputs) := by
  have hans : nextAnswer p (withHostSide txt stale inputs s) = nextAnswer p s := nextAnswer_congr p rfl rfl
  have htx (b : Byte) : transmitDisplay p b (withHostSide txt stale inputs s) =
      withHostSide txt stale inputs (transmitDisplay p b s) := by
    simp only [transmitDisplay_eq, useAnswer_eq, hans]
    rfl
  cases act with
  | loadText addr n => exact absurd rfl (hact addr n)
  | gate ch =>
    have hread : (withHostSide txt stale inputs s).clken = s.clken := rfl
    simp only [doAction, enableGate, hread]
    split <;> rfl
  | warn w => cases w <;> rfl
  | checkPolarity pp => simp only [doAction]; split <;> rfl
  | tinit ch cfg =>
    simp only [doAction, transportInit, hans, useAnswer_eq]
    split <;> rfl
  | send i d =>
    have hbyte : datumByte p d (withHostSide txt stale inputs s) = datumByte p d s := datumByte_congr p d rfl
    simp only [doAction, hbyte, htx]
    rfl
  | dummy => simp only [doAction, htx]; rfl
  | _ => rfl

theorem ActionResult.map_congr {r : ActionResult} {f g : State → State} (h : ∀ t, r.Reaches t → f t = g t) :
    r.map f = r.map g := by
  cases r <;> simp only [ActionResult.map] <;> rw [h _ rfl]

/-- A change of the host's side that an action cannot tell from the fields it keeps commutes with the action. -/
theorem doAction_commutes_hostSide (p : Params) {act : Action} (hact : ∀ addr n, act ≠ .loadText addr n)
    (f : State → State) (txt : Memory) (stale : List Host.Cell) (inputs : List HostInput) (s : State)
    (hf : ∀ t, t.txt = s.txt → KeepsControl s t → f t = withHostSide txt stale inputs t) :
    doAction p act (f s) = (doAction p act s).map f := by
  rw [hf s rfl ⟨rfl, rfl, rfl, rfl⟩, doAction_withHostSide p hact]
  exact ActionResult.map_congr fun t ht => (hf t (doAction_frame ht).txt (doAction_effect ht).2).symm

/-- A run that reads no text does the same before and after a host write, which leaves its byte (R44). -/
theorem runScript_hostWrite (p : Params) {script : List Action}
    (hscript : ∀ addr n, Action.loadText addr n ∉ script) (a : BitVec 8) (v : Byte) (s : State) :
    runScript p script (hostWrite a v s) = (hostWrite a v (runScript p script s).1, (runScript p script s).2) := by
  refine runScript_commutes (hostWrite a v) (fun _ => rfl) (fun s => ?_) (fun _ _ => rfl) (fun _ => rfl)
    (fun _ _ => rfl) script (fun act hm s => ?_) s
  · unfold passTime hostWrite
    dsimp only
    split <;> rfl
  · refine doAction_commutes_hostSide p (fun addr n he => hscript addr n (he ▸ hm)) (hostWrite a v)
      (hostWrite a v s).txt (hostWrite a v s).stale s.inputs s fun t htxt ⟨hbusy, _, hinputs, hstale⟩ => ?_
    simp only [hostWrite, withHostSide, htxt, hbusy, hstale]
    rw [← hinputs]

/-- One input of the host pending, after `n` more actions. -/
def withPending (act : HostAct) (n : Nat) (s : State) : State := { s with inputs := [⟨n, act⟩] }

theorem doAction_withPending (p : Params) {a : Action} (ha : ∀ addr m, a ≠ .loadText addr m) (act : HostAct)
    (n : Nat) (s : State) : doAction p a (withPending act n s) = (doAction p a s).map (withPending act n) :=
  doAction_commutes_hostSide p ha (withPending act n) s.txt s.stale [⟨n, act⟩] s fun t htxt hctl => by
    simp only [withPending, withHostSide, ← htxt, ← hctl.stale]

/-- A run from `s` is the run of `rest` from `mid`, which is reached with no input pending. -/
structure ReachedIn (p : Params) (script : List Action) (s : State) (rest : List Action) (mid : State) : Prop where
  run : runScript p script s = runScript p rest mid
  suffix : rest <:+ script
  control : KeepsControl s mid

/-- A run with one host input pending: it ends as it would without, or pauses where the input is due, with the rest
of the undisturbed run to do. -/
theorem runScript_withPending (p : Params) (act : HostAct) (script : List Action) (n : Nat) (s : State)
    (hscript : ∀ addr m, Action.loadText addr m ∉ script) (hin : s.inputs = []) :
    (∃ m, runScript p script (withPending act n s) =
      (withPending act m (runScript p script s).1, (runScript p script s).2)) ∨
    ∃ rest mid, ReachedIn p script s rest mid ∧
      runScript p script (withPending act n s) = ({ withPending act 0 mid with todo := rest }, none) := by
  induction script generalizing n s with
  | nil => exact .inl ⟨n, rfl⟩
  | cons a script ih =>
    cases n with
    | zero => exact .inr ⟨a :: script, s, ⟨rfl, List.suffix_rfl, ⟨rfl, rfl, rfl, rfl⟩⟩, rfl⟩
    | succ n =>
      have hdo := doAction_withPending p (fun addr m he => hscript addr m (by simp [he])) act n s (a := a)
      have hpass : passTime (withPending act (n + 1) s) = withPending act n s := rfl
      rw [← hpass] at hdo
      cases hd : doAction p a s with
      | goesOn t =>
        have hctl : KeepsControl s t := (doAction_effect (by rw [hd]; rfl : (doAction p a s).Reaches t)).2
        rw [runScript_cons_goesOn hin hd, runScript_notDue_goesOn rfl (hdo.trans (by rw [hd]; rfl))]
        refine (ih n t (fun addr m hm => hscript addr m (by simp [hm])) (hctl.inputs.trans hin)).imp_right ?_
        rintro ⟨rest, mid, ⟨hrun, hsuffix, hmid⟩, hpause⟩
        exact ⟨rest, mid, ⟨(runScript_cons_goesOn hin hd).trans hrun, hsuffix.trans (List.suffix_cons a script),
          ⟨hmid.busy.trans hctl.busy, hmid.todo.trans hctl.todo, hmid.inputs.trans hctl.inputs,
            hmid.stale.trans hctl.stale⟩⟩, hpause⟩
      | raises e t =>
        rw [runScript_cons_raises hin hd, runScript_notDue_raises rfl (hdo.trans (by rw [hd]; rfl))]
        exact .inl ⟨n, rfl⟩
      | breaks f t =>
        rw [runScript_cons_breaks hin hd, runScript_notDue_breaks rfl (hdo.trans (by rw [hd]; rfl))]
        exact .inl ⟨n, rfl⟩

/-- With no input pending a run that does not break is over (R12). -/
theorem runScript_over {p : Params} {script : List Action} {s t : State} (hin : s.inputs = [])
    (h : runScript p script s = (t, none)) : t.busy = false := by
  induction script generalizing s with
  | nil => cases h; rfl
  | cons a rest ih =>
    cases hd : doAction p a s with
    | goesOn u =>
      rw [runScript_cons_goesOn hin hd] at h
      exact ih ((doAction_effect (by rw [hd]; rfl : (doAction p a s).Reaches u)).2.inputs.trans hin) h
    | raises e u => rw [runScript_cons_raises hin hd] at h; cases h; rfl
    | breaks f u => rw [runScript_cons_breaks hin hd] at h; cases h

/-- A host write with nothing running replaces its byte. -/
theorem hostWrite_of_idle (a : BitVec 8) (v : Byte) {s : State} (hb : s.busy = false) :
    hostWrite a v s = { s with txt := Memory.write s.txt a.toNat v } := by
  simp [hostWrite, hb]

/-- A host write that is due at a pause lands there, and the next step does the rest of the run beside it (R44). -/
theorem steps_of_pendingWrite {rest : List Action} {mid r : State} {a : BitVec 8} {v : Byte}
    (hrest : ∀ addr m, Action.loadText addr m ∉ rest) (hin : mid.inputs = []) (hb : mid.busy = true)
    (htodo : mid.todo = []) (hrun : runScript deployed rest mid = (r, none)) :
    ∃ u, step { withPending (.writeTxt a v) 0 mid with todo := rest } = .next u ∧
      step u = .next (hostWrite a v r) := by
  obtain ⟨u, hu⟩ : ∃ u, u = hostWrite a v { mid with todo := rest, inputs := [] } := ⟨_, rfl⟩
  refine ⟨u, hu ▸ step_of_due (act := .writeTxt a v) (rest := []) rfl, ?_⟩
  have hmid : ({ u with todo := [] } : State) = hostWrite a v mid := by
    rw [hu]
    simp only [hostWrite]
    rw [← hin, ← htodo]
  have hutodo : u.todo = rest := by rw [hu]; rfl
  rw [step_of_busy (s := u) (by rw [hu]; rfl) (by rw [hu]; exact hb), hmid, hutodo,
    runScript_hostWrite deployed hrest, hrun]
  rfl

/-- Settles O49: a refusal comes before the write, and a run that the write interrupts goes on as it would have. -/
theorem textWriteDisturbsOnlyScroll : Obligations.TextWriteDisturbsOnlyScroll := by
  intro i n addr v s hi hb htodo hin
  have hplan : planOf deployed i (withPending (.writeTxt addr v) n s) = planOf deployed i s := by cases i <;> rfl
  rw [show ({ s with inputs := [⟨n, .writeTxt addr v⟩] } : State) = withPending (.writeTxt addr v) n s from rfl,
    exec_eq_perform, exec_eq_perform, hplan]
  rcases planOf_cases deployed i s with ⟨e, k, hp, -⟩ | ⟨script, hp, hscr⟩ <;> rw [hp]
  · exact ⟨_, _, rfl, rfl, fun _ => rfl, fun h => absurd h (by simp [perform, raise])⟩
  have hnoText := hscr.loadText_notMem hi
  obtain ⟨r, hr⟩ : ∃ r, runScript deployed script s = (r, none) :=
    ⟨_, Prod.ext rfl (runScript_never_breaks deployed script s hnoText)⟩
  have hover := runScript_over hin hr
  simp only [perform]
  rcases runScript_withPending deployed (.writeTxt addr v) script n s hnoText hin with
    ⟨m, hpend⟩ | ⟨rest, mid, ⟨hrun, hsuffix, hctl⟩, hpend⟩
  · rw [hpend, hr]
    exact ⟨_, _, rfl, rfl, fun _ => rfl, fun h => absurd h (by simp [withPending, hover])⟩
  · have hbusy : mid.busy = true := hctl.busy.trans hb
    rw [hpend, hr]
    refine ⟨r, _, rfl, rfl, fun h => absurd h (by simp [withPending, hbusy]), fun _ => ?_⟩
    have htxt : r.txt = s.txt := by
      have hframe := runScript_frame deployed script s
      rw [hr] at hframe
      exact hframe.txt
    rw [← htxt, ← hostWrite_of_idle addr v hover]
    exact steps_of_pendingWrite (fun a m hm => hnoText a m (hsuffix.subset hm)) (hctl.inputs.trans hin) hbusy
      (hctl.todo.trans htodo) (hrun.symm.trans hr)

end Sys2Proof.Machine

/-! ### Tables of the deployment, the bit clock and least times -/

namespace Sys2Proof.Machine

/-! #### Tables -/

/-- Settles O21: the table is built entry by entry, and has eight. -/
theorem prescalerTable : Obligations.PrescalerTable := by
  refine ⟨fun k hk => ?_, fun k hk => ?_⟩
  · simp [readPresc, deployed, deployedPresc, hk]
  · simp [readPresc, deployed, deployedPresc, hk]

/-- The receiver samples on a rising edge exactly when polarity and phase agree (R53). -/
theorem samplingEdge_eq (cfg : BitVec 16) :
    samplingEdge cfg = if cfgCpha cfg = cfgCpol cfg then .rising else .falling := by
  unfold samplingEdge samplingPlace leadingEdge trailingEdge
  generalize cfgCpha cfg = cpha
  generalize cfgCpol cfg = cpol
  revert cpha cpol
  decide

/-- What a configuration with the two bits of a code samples on. -/
theorem sampling_of_ppMap {pp : Word} {cpha cpol : BitVec 1} (hmap : ppMap pp = some (cpha, cpol)) {cfg : BitVec 16}
    (h : ppMap pp = some (cfgCpha cfg, cfgCpol cfg)) :
    samplingPlace cfg = (if cpha = 0 then .leading else .trailing) ∧
      samplingEdge cfg = if cpha = cpol then .rising else .falling := by
  obtain ⟨rfl, rfl⟩ : cpha = cfgCpha cfg ∧ cpol = cfgCpol cfg := by simpa [hmap] using h
  exact ⟨rfl, samplingEdge_eq cfg⟩

/-- Settles O26: the map, and for each of its codes the place and the edge that its two bits give. -/
theorem polarityPhaseMap : Obligations.PolarityPhaseMap := by
  refine ⟨rfl, rfl, rfl, rfl, fun pp hpp => ?_, fun cfg => ⟨?_, ?_, ?_, ?_⟩⟩
  · obtain ⟨k, hk⟩ : ∃ k, pp.toNat = k + 4 := ⟨pp.toNat - 4, by omega⟩
    rw [ppMap, hk]
    rfl
  · exact sampling_of_ppMap (pp := 0) rfl
  · exact sampling_of_ppMap (pp := 1) rfl
  · exact sampling_of_ppMap (pp := 2) rfl
  · exact sampling_of_ppMap (pp := 3) rfl

/-- The code of an entry finds the entry: codes are distinct (R84). -/
theorem find?_prescCode {k : Nat} (hk : k < 8) :
    deployed.presc.find? (fun e => e.code = prescCode deployed k) = some ⟨2 ^ (k + 1), BitVec.ofNat 3 k⟩ := by
  have hall : ∀ k < 8, deployedPresc.find? (fun e => e.code = prescCode deployed k) =
      some ⟨2 ^ (k + 1), BitVec.ofNat 3 k⟩ := by decide
  exact hall k hk

/-- Settles O53. -/
theorem bitClockOfAnEntry : Obligations.BitClockOfAnEntry := by
  intro ch k hk
  rw [bitClock, find?_prescCode hk]

/-! #### Least times -/

theorem leastMicros_append (p : Params) (cfgs : Sparse 16) (es fs : List Event) :
    leastMicros p cfgs (es ++ fs) = leastMicros p cfgs es + leastMicros p (es.foldl cfgsAfter cfgs) fs := by
  induction es generalizing cfgs with
  | nil => simp [leastMicros]
  | cons e es ih => simp [leastMicros, ih, add_assoc]

/-- Events without a transport init leave the channels' configuration (R125). -/
theorem foldl_cfgsAfter_of_noTinit {es : List Event} (h : ∀ ch cfg st, Event.tinit ch cfg st ∉ es)
    (cfgs : Sparse 16) : es.foldl cfgsAfter cfgs = cfgs := by
  induction es with
  | nil => rfl
  | cons e es ih =>
    have hrest := ih fun ch cfg st hm => h ch cfg st (List.mem_cons_of_mem _ hm)
    cases e with
    | tinit ch cfg st => exact absurd List.mem_cons_self (h ch cfg st)
    | _ => exact hrest

/-- The events of transmits. -/
theorem mem_txEvents {p : Params} {bs : List Byte} {sts : List Status} {e : Event} (h : e ∈ txEvents p bs sts) :
    (∃ b st, e = .tx p.dispCh b st) ∨ e = .log .eTxFailed := by
  induction bs generalizing sts with
  | nil => simp [txEvents] at h
  | cons b bs ih =>
    cases sts with
    | nil => simp [txEvents] at h
    | cons st sts =>
      simp only [txEvents, List.mem_cons, List.mem_append] at h
      rcases h with rfl | h | h
      · exact .inl ⟨b, st, rfl⟩
      · cases st with
        | ok => simp [statusEvents] at h
        | fail => exact .inr (by simpa [statusEvents] using h)
      · exact ih h

theorem tinit_notMem_txEvents (p : Params) (bs : List Byte) (sts : List Status) (ch : Nat) (cfg : BitVec 16)
    (st : Status) : Event.tinit ch cfg st ∉ txEvents p bs sts := by
  intro h
  rcases mem_txEvents h with ⟨b, st, h⟩ | h <;> cases h

theorem tinit_notMem_windowEvents (p : Params) (sp : Space) (payload : List Byte) (sts : List Status) (ch : Nat)
    (cfg : BitVec 16) (st : Status) : Event.tinit ch cfg st ∉ windowEvents p sp payload sts := by
  simp [windowEvents, tinit_notMem_txEvents]

/-- The display's bit periods of one byte, with the channels configured as `cfgs` (R42, R54). -/
def displayMicros (p : Params) (cfgs : Sparse 16) : Rat := byteMicros p p.dispCh (cfgBr (Sparse.read cfgs p.dispCh))

/-- Transmits take eight bit periods each, whatever their statuses (R52, R54). -/
theorem leastMicros_txEvents (p : Params) (cfgs : Sparse 16) (bs : List Byte) (sts : List Status)
    (hlen : sts.length = bs.length) :
    leastMicros p cfgs (txEvents p bs sts) = bs.length * displayMicros p cfgs := by
  induction bs generalizing sts with
  | nil => simp [txEvents, leastMicros]
  | cons b bs ih =>
    cases sts with
    | nil => simp at hlen
    | cons st sts =>
      have hrest := ih sts (by simpa using hlen)
      have hlog : leastMicros p cfgs (statusEvents st ++ txEvents p bs sts) = bs.length * displayMicros p cfgs := by
        cases st <;> simpa [statusEvents, leastMicros, eventMicros, cfgsAfter] using hrest
      simp only [txEvents, leastMicros, eventMicros, cfgsAfter, hlog, displayMicros, List.length_cons]
      push_cast
      ring

/-- A window takes its two delays and eight bit periods for each payload byte and the dummy byte (R54, R265). -/
theorem leastMicros_windowEvents (p : Params) (cfgs : Sparse 16) (sp : Space) (payload : List Byte)
    {sts : List Status} (hlen : sts.length = payload.length + 1) :
    leastMicros p cfgs (windowEvents p sp payload sts) =
      p.tSettleUs + p.tPostUs + (payload.length + 1) * displayMicros p cfgs := by
  have hsent := leastMicros_txEvents p cfgs payload (sts.take payload.length) (by simp [hlen])
  have hlast := leastMicros_txEvents p cfgs [0] (sts.drop payload.length) (by simp [hlen])
  have hcfgs := foldl_cfgsAfter_of_noTinit (tinit_notMem_txEvents p payload (sts.take payload.length)) cfgs
  simp only [windowEvents, leastMicros_append, List.foldl_append, List.foldl_cons, List.foldl_nil, cfgsAfter, hcfgs,
    hsent, hlast, leastMicros, eventMicros, List.length_cons, List.length_nil]
  push_cast
  ring

/-- Settles O54. -/
theorem windowLeastTime : Obligations.WindowLeastTime := by
  intro sp data s hin
  refine ⟨_, _, runScript_window_end deployed sp data s hin, rfl, ?_⟩
  rw [leastMicros_windowEvents deployed s.tcfg sp _ (by simp), List.length_map]
  rfl

/-! #### `INIT` -/

/-- The events of a configuration's first two actions (R100, R122). -/
def gateAndWarnEvents (p : Params) (ch : Nat) (s : State) : List Event :=
  (if Sparse.read s.clken ch = 0 then [.clkGate ch] else []) ++ (channelDivisor p ch).2.logEvents

/-- The state after a configuration's first two actions: the gate on, the selector's warning noted. -/
def gatedAndWarned (p : Params) (ch : Nat) (s : State) : State :=
  { s with
    clken := Sparse.write s.clken ch 1
    warnLow := s.warnLow || (channelDivisor p ch).2 = .low
    warnHigh := s.warnHigh || (channelDivisor p ch).2 = .high
    trace := s.trace ++ gateAndWarnEvents p ch s }

/-- A configuration comes to its checks with the gate on and the warning noted (R120, R127). -/
theorem runScript_configureScript (p : Params) (ch : Nat) (pp : Word) (rest : List Action) (s : State)
    (hin : s.inputs = []) (hgates : Sparse.wf s.clken = true) :
    runScript p (configureScript p ch pp ++ rest) s =
      runScript p (.checkPolarity pp :: .tinit ch (stagedCfg p ch pp) :: rest) (gatedAndWarned p ch s) := by
  have hgate : doAction p (.gate ch) s = .goesOn (enableGate ch s) := rfl
  have hwarn : doAction p (.warn (channelDivisor p ch).2) (enableGate ch s) = .goesOn (gatedAndWarned p ch s) := by
    rw [doAction, noteWarning_eq, enableGate_eq ch s hgates]
    simp [gatedAndWarned, gateAndWarnEvents]
  have hinputs : (enableGate ch s).inputs = [] := by rw [enableGate_eq ch s hgates]; exact hin
  simp only [configureScript, List.cons_append, List.nil_append]
  rw [runScript_cons_goesOn hin hgate, runScript_cons_goesOn hinputs hwarn]

/-- The state a configuration leaves whose transport init answers ok (R120 to R125). -/
def configureDone (p : Params) (ch : Nat) (pp : Word) (s : State) : State :=
  { useAnswer (gatedAndWarned p ch s) with
    tcfg := Sparse.write s.tcfg ch (stagedCfg p ch pp ||| validBit)
    trace := s.trace ++ (gateAndWarnEvents p ch s ++ [.tinit ch (stagedCfg p ch pp) .ok]) }

/-- All that a configuration does whose transport init answers ok, with no input of the host pending. -/
theorem runScript_configureScript_ok (p : Params) (ch : Nat) (pp : Word) (rest : List Action) (s : State)
    (hin : s.inputs = []) (hgates : Sparse.wf s.clken = true) (hpp : pp.toNat < 4) (hans : nextAnswer p s = .ok) :
    runScript p (configureScript p ch pp ++ rest) s = runScript p rest (configureDone p ch pp s) := by
  have hinputs : (gatedAndWarned p ch s).inputs = [] := hin
  have hlegal : doAction p (.checkPolarity pp) (gatedAndWarned p ch s) = .goesOn (gatedAndWarned p ch s) :=
    if_neg (by omega)
  have hans' : nextAnswer p (gatedAndWarned p ch s) = .ok := (nextAnswer_congr p rfl rfl).trans hans
  have hinit : doAction p (.tinit ch (stagedCfg p ch pp)) (gatedAndWarned p ch s) =
      .goesOn (configureDone p ch pp s) := by
    simp only [doAction, transportInit, hans', commitCfg, emit, configureDone]
    simp [gatedAndWarned]
  rw [runScript_configureScript p ch pp rest s hin hgates, runScript_cons_goesOn hinputs hlegal,
    runScript_cons_goesOn hinputs hinit]

/-- The state in which an `INIT` whose transport init answers ok opens its first window: roles set, channel
configured, device reset (R171). -/
def displayReset (p : Params) (pp : Word) (s : State) : State :=
  { configureDone p p.dispCh pp (emit .gpioCfg s) with
    rst := 1
    trace := s.trace ++ ([.gpioCfg] ++ gateAndWarnEvents p p.dispCh s ++
      [.tinit p.dispCh (stagedCfg p p.dispCh pp) .ok, .pin .rst 0, .delayMs p.tResetMs, .pin .rst 1]) }

/-- All that an `INIT` does whose transport init answers ok, with no input of the host pending (R171). -/
theorem runScript_initScript_ok (p : Params) (pp : Word) (s : State) (hin : s.inputs = [])
    (hgates : Sparse.wf s.clken = true) (hpp : pp.toNat < 4) (hans : nextAnswer p s = .ok) :
    runScript p (initScript p pp) s =
      (endOperation p (windowDone p .ctrl [initControlByte p] (windowDone p .dot clearFrame (displayReset p pp s))),
        none) := by
  have hscript : initScript p pp = .gpioCfg :: (configureScript p p.dispCh pp ++
      (resetPulse p ++ (clearWindow p ++ controlWindow p (initControlByte p)))) := by
    simp [initScript, resetPulse]
  have hconfigured : (configureDone p p.dispCh pp (emit .gpioCfg s)).inputs = [] := by
    simpa [configureDone, gatedAndWarned] using hin
  have hreset : (displayReset p pp s).inputs = [] := hconfigured
  have hpulse : { configureDone p p.dispCh pp (emit .gpioCfg s) with
      rst := 1
      trace := (configureDone p p.dispCh pp (emit .gpioCfg s)).trace ++
        [.pin .rst 0, .delayMs p.tResetMs, .pin .rst 1] } = displayReset p pp s := by
    have hsame : gateAndWarnEvents p p.dispCh (emit .gpioCfg s) = gateAndWarnEvents p p.dispCh s := rfl
    simp [displayReset, configureDone, hsame]
  rw [hscript, runScript_cons_goesOn hin rfl,
    runScript_configureScript_ok p p.dispCh pp _ (emit .gpioCfg s) hin hgates hpp
      ((nextAnswer_congr p rfl rfl).trans hans),
    runScript_resetPulse p _ _ hconfigured, hpulse, clearWindow, runScript_window p _ _ _ _ hreset,
    map_datumByte_byte, controlWindow, runScript_window_end p _ _ _ ((windowDone_inputs ..).trans hreset)]
  rfl

theorem windowDone_trace (p : Params) (sp : Space) (payload : List Byte) (s : State) :
    (windowDone p sp payload s).trace =
      s.trace ++ windowEvents p sp payload (answersAhead p (payload.length + 1) s) := rfl

/-- The trace of such an `INIT`. -/
theorem initDone_trace (p : Params) (pp : Word) (s : State) :
    ∃ dotSts ctrlSts : List Status, dotSts.length = 21 ∧ ctrlSts.length = 2 ∧
      (windowDone p .ctrl [initControlByte p] (windowDone p .dot clearFrame (displayReset p pp s))).trace =
        s.trace ++ ([.gpioCfg] ++ gateAndWarnEvents p p.dispCh s ++
          [.tinit p.dispCh (stagedCfg p p.dispCh pp) .ok, .pin .rst 0, .delayMs p.tResetMs, .pin .rst 1] ++
          windowEvents p .dot clearFrame dotSts ++ windowEvents p .ctrl [initControlByte p] ctrlSts) :=
  ⟨_, _, answersAhead_length p 21 (displayReset p pp s),
    answersAhead_length p 2 (windowDone p .dot clearFrame (displayReset p pp s)), by
      simp only [windowDone_trace, displayReset, List.append_assoc]
      rfl⟩

/-- A gate switched on and a warning take no time (R265). -/
theorem leastMicros_gateAndWarnEvents (p : Params) (cfgs : Sparse 16) (ch : Nat) (s : State) :
    leastMicros p cfgs (gateAndWarnEvents p ch s) = 0 := by
  have hgate : leastMicros p cfgs (if Sparse.read s.clken ch = 0 then [.clkGate ch] else []) = 0 := by
    split <;> simp [leastMicros, eventMicros]
  rw [gateAndWarnEvents, leastMicros_append, hgate]
  cases (channelDivisor p ch).2 <;> simp [Warn.logEvents, leastMicros, eventMicros]

theorem tinit_notMem_gateAndWarnEvents (p : Params) (ch : Nat) (s : State) (c : Nat) (cfg : BitVec 16)
    (st : Status) : Event.tinit c cfg st ∉ gateAndWarnEvents p ch s := by
  have hgate : Event.tinit c cfg st ∉ (if Sparse.read s.clken ch = 0 then [Event.clkGate ch] else []) := by
    split <;> simp
  have hwarn : Event.tinit c cfg st ∉ (channelDivisor p ch).2.logEvents := by
    cases (channelDivisor p ch).2 <;> simp [Warn.logEvents]
  exact fun h => (List.mem_append.1 h).elim hgate hwarn

/-- The display's bit periods once it is configured are those of the selected divisor (R123). -/
theorem displayMicros_configured (p : Params) (pp : Word) {cfgs : Sparse 16} (hwf : Sparse.wf cfgs = true) :
    displayMicros p (Sparse.write cfgs p.dispCh (stagedCfg p p.dispCh pp ||| validBit)) =
      byteMicros p p.dispCh (prescCode p (channelDivisor p p.dispCh).1) := by
  obtain ⟨-, -, -, -, -, -, hbr, -, -⟩ := stagedCfg_fields p p.dispCh pp
  obtain ⟨-, -, -, -, hvalid, -⟩ := cfgFields_or_validBit (stagedCfg p p.dispCh pp)
  rw [displayMicros, Sparse.read_write_same _ _ _ hwf, hvalid, hbr]

/-- Settles O57: only the hold of the reset pin and the two windows take time, and the windows run with the
configuration just written. -/
theorem initLeastTime : Obligations.InitLeastTime := by
  intro pp s hin hgates hcfgs hpp hans
  obtain ⟨dotSts, ctrlSts, hdot, hctrl, htrace⟩ := initDone_trace deployed pp s
  have hrun := runScript_initScript_ok deployed pp s hin hgates hpp hans
  refine ⟨_, _, exec_of_perform hrun, htrace, ?_⟩
  have hprep := foldl_cfgsAfter_of_noTinit (tinit_notMem_gateAndWarnEvents deployed deployed.dispCh s) s.tcfg
  have hfirst (cfgs : Sparse 16) : (windowEvents deployed .dot clearFrame dotSts).foldl cfgsAfter cfgs = cfgs :=
    foldl_cfgsAfter_of_noTinit (tinit_notMem_windowEvents deployed .dot clearFrame dotSts) cfgs
  have hdotTime (cfgs : Sparse 16) := leastMicros_windowEvents deployed cfgs .dot clearFrame hdot
  have hctrlTime (cfgs : Sparse 16) :=
    leastMicros_windowEvents deployed cfgs .ctrl [initControlByte deployed] hctrl
  simp only [leastMicros_append, List.foldl_append, List.foldl_cons, List.foldl_nil, cfgsAfter, hprep, hfirst,
    hdotTime, hctrlTime, leastMicros_gateAndWarnEvents, leastMicros, eventMicros, displayMicros_configured deployed pp hcfgs]
  have hlen : clearFrame.length = 20 := rfl
  rw [hlen, List.length_singleton]
  push_cast
  ring

end Sys2Proof.Machine

/-! ### Transmits and the display's channel -/

namespace Sys2Proof.Machine

/-! #### Events that transmit or configure -/

/-- Only the transport-init action brings a transport-init event. -/
theorem tinit_of_tinit_mem {p : Params} {a : Action} {s : State} {ch : Nat} {cfg : BitVec 16} {st : Status}
    (h : Event.tinit ch cfg st ∈ actionEvents p a s) : a = .tinit ch cfg := by
  have hstatus : Event.tinit ch cfg st ∉ statusEvents (nextAnswer p s) := by
    cases nextAnswer p s <;> simp [statusEvents]
  cases a <;> simp [actionEvents, hstatus] at h
  case tinit c x => rw [h.1, h.2.1]
  case warn w => cases w <;> simp [Warn.logEvents] at h

/-- An action that transmits (R143, R147). -/
def Action.transmits : Action → Bool
  | .send _ _ => true
  | .dummy => true
  | _ => false

/-- Only a transmitting action brings a transmit event. -/
theorem transmits_of_tx_mem {p : Params} {a : Action} {s : State} {ch : Nat} {b : Byte} {st : Status}
    (h : Event.tx ch b st ∈ actionEvents p a s) : a.transmits = true := by
  cases a <;> simp [actionEvents] at h
  case send i d => rfl
  case dummy => rfl
  case warn w => cases w <;> simp [Warn.logEvents] at h

/-- A transmitting action brings one transmit on the display's channel, and its log entry (R148). -/
theorem actionEvents_of_transmits {p : Params} {a : Action} (h : a.transmits = true) (s : State) :
    ∃ b st, actionEvents p a s = .tx p.dispCh b st :: statusEvents st := by
  cases a <;> simp only [Action.transmits, Bool.false_eq_true] at h
  all_goals exact ⟨_, _, rfl⟩

/-! #### Validity as the trace tells it -/

/-- Two maps of configurations that call the same channels valid. -/
structure SameValidity (cfgs regs : Sparse 16) : Prop where
  wf : Sparse.wf cfgs = true
  wfRegs : Sparse.wf regs = true
  valid : ∀ ch, cfgValid (Sparse.read cfgs ch) = cfgValid (Sparse.read regs ch)

theorem SameValidity.refl {cfgs : Sparse 16} (h : Sparse.wf cfgs = true) : SameValidity cfgs cfgs :=
  ⟨h, h, fun _ => rfl⟩

theorem SameValidity.write {cfgs regs : Sparse 16} (h : SameValidity cfgs regs) (ch : Nat) {x y : BitVec 16}
    (hxy : cfgValid x = cfgValid y) : SameValidity (Sparse.write cfgs ch x) (Sparse.write regs ch y) where
  wf := Sparse.write_wf _ _ _ h.wf
  wfRegs := Sparse.write_wf _ _ _ h.wfRegs
  valid c := by
    by_cases hc : c = ch
    · rw [hc, Sparse.read_write_same _ _ _ h.wf, Sparse.read_write_same _ _ _ h.wfRegs, hxy]
    · rw [Sparse.read_write_other _ _ _ _ hc, Sparse.read_write_other _ _ _ _ hc, h.valid c]

theorem cfgValid_and_not_validBit (c : BitVec 16) : cfgValid (c &&& ~~~validBit) = 0 := by
  have hv : (~~~validBit).extractLsb' 9 1 = 0 := by decide
  rw [cfgValid, BitVec.extractLsb'_and, hv]
  simp

/-- Only a transport init writes a configuration (R21, R125). -/
theorem doAction_tcfg {p : Params} {a : Action} {s t : State} (ha : ∀ ch cfg, a ≠ .tinit ch cfg)
    (ht : (doAction p a s).Reaches t) : t.tcfg = s.tcfg := by
  cases hw : a.writesTransport with
  | false => exact (doAction_transport hw ht).2
  | true =>
    cases a with
    | gate ch =>
      simp only [doAction, ActionResult.Reaches] at ht
      subst ht
      unfold enableGate
      split <;> rfl
    | tinit ch cfg => exact absurd rfl (ha ch cfg)
    | _ => cases hw

/-- An action leaves the registers with the validity that its events tell (R125). -/
theorem SameValidity.doAction {p : Params} {a : Action} {s t : State} {cfgs : Sparse 16}
    (h : SameValidity cfgs s.tcfg) (ht : (Machine.doAction p a s).Reaches t) :
    SameValidity ((actionEvents p a s).foldl cfgsAfter cfgs) t.tcfg := by
  by_cases ha : ∃ ch cfg, a = .tinit ch cfg
  · obtain ⟨ch, cfg, rfl⟩ := ha
    simp only [Machine.doAction, transportInit] at ht
    cases hans : nextAnswer p s <;> simp only [hans, ActionResult.Reaches] at ht <;> subst ht <;>
      simp only [actionEvents, hans, List.foldl_cons, List.foldl_nil, cfgsAfter]
    · simpa only [commitCfg, emit_tcfg, useAnswer_tcfg] using h.write ch rfl
    · have hspoilt := (cfgFields_unspecified (p.freeTcfg (emit (.tinit ch cfg .fail) (useAnswer s)).fresh)).1
      simpa only [spoilCfg, emit_tcfg, useAnswer_tcfg] using
        h.write ch ((cfgValid_and_not_validBit _).trans hspoilt.symm)
  · have hnot (ch : Nat) (cfg : BitVec 16) : a ≠ .tinit ch cfg := fun hc => ha ⟨ch, cfg, hc⟩
    rw [foldl_cfgsAfter_of_noTinit (fun ch cfg _ hm => hnot ch cfg (tinit_of_tinit_mem hm)), doAction_tcfg hnot ht]
    exact h

/-! #### Transmits over a run -/

/-- Every transmit among these events is on the display's channel, valid where the transport inits before it, from
`cfgs` on, leave it so (R52, R149). -/
def TransmitsOnValid (p : Params) (cfgs : Sparse 16) (es : List Event) : Prop :=
  ∀ pre ch b st post, es = pre ++ Event.tx ch b st :: post →
    ch = p.dispCh ∧ cfgValid (Sparse.read (pre.foldl cfgsAfter cfgs) ch) = 1

theorem TransmitsOnValid.of_noTx {p : Params} {cfgs : Sparse 16} {es : List Event}
    (h : ∀ ch b st, Event.tx ch b st ∉ es) : TransmitsOnValid p cfgs es :=
  fun pre ch b st _ he => absurd (he ▸ List.mem_append_right pre List.mem_cons_self) (h ch b st)

theorem TransmitsOnValid.cons_tx {p : Params} {cfgs : Sparse 16} {es : List Event}
    (hv : cfgValid (Sparse.read cfgs p.dispCh) = 1) (b : Byte) (st : Status) (h : TransmitsOnValid p cfgs es) :
    TransmitsOnValid p cfgs (.tx p.dispCh b st :: es) := by
  intro pre ch c r post he
  cases pre with
  | nil =>
    cases he
    exact ⟨rfl, hv⟩
  | cons e pre =>
    obtain ⟨rfl, hes⟩ := List.cons_eq_cons.1 he
    exact h pre ch c r post hes

theorem TransmitsOnValid.append {p : Params} {cfgs : Sparse 16} {es fs : List Event} (he : TransmitsOnValid p cfgs es)
    (hf : TransmitsOnValid p (es.foldl cfgsAfter cfgs) fs) : TransmitsOnValid p cfgs (es ++ fs) := by
  intro pre ch b st post hsplit
  rcases List.append_eq_append_iff.1 hsplit with ⟨mid, rfl, hmid⟩ | ⟨mid, rfl, hmid⟩
  · rw [List.foldl_append]
    exact hf mid ch b st post hmid
  · cases mid with
    | nil =>
      rw [List.append_nil] at hf
      exact hf [] ch b st post hmid.symm
    | cons e mid =>
      obtain ⟨rfl, -⟩ := List.cons_eq_cons.1 hmid
      exact he pre ch b st mid rfl

/-- A part of a run whose transmits are on a valid display channel, which is valid at its end too, with the
registers' validity as its events tell it. -/
structure TransmitsValidly (cfgs : Sparse 16) (es : List Event) (t : State) : Prop where
  onValid : TransmitsOnValid deployed cfgs es
  same : SameValidity (es.foldl cfgsAfter cfgs) t.tcfg
  still : ∀ ch b st, Event.tx ch b st ∈ es → channelValid t deployed.dispCh = true

/-- A part that neither transmits nor configures. -/
theorem TransmitsValidly.of_quiet {cfgs : Sparse 16} {es : List Event} {s t : State} (h : SameValidity cfgs s.tcfg)
    (htcfg : t.tcfg = s.tcfg) (htx : ∀ ch b st, Event.tx ch b st ∉ es)
    (htinit : ∀ ch cfg st, Event.tinit ch cfg st ∉ es) : TransmitsValidly cfgs es t where
  onValid := .of_noTx htx
  same := by
    rw [foldl_cfgsAfter_of_noTinit htinit, htcfg]
    exact h
  still ch b st hm := absurd hm (htx ch b st)

theorem TransmitsValidly.append {cfgs : Sparse 16} {es fs : List Event} {t : State}
    (he : TransmitsOnValid deployed cfgs es) (hf : TransmitsValidly (es.foldl cfgsAfter cfgs) fs t)
    (hstill : ∀ ch b st, Event.tx ch b st ∈ es → channelValid t deployed.dispCh = true) :
    TransmitsValidly cfgs (es ++ fs) t where
  onValid := he.append hf.onValid
  same := by
    rw [List.foldl_append]
    exact hf.same
  still ch b st hm := (List.mem_append.1 hm).elim (hstill ch b st) (hf.still ch b st)

theorem tx_notMem_logEvents (e : Err) (ch : Nat) (b : Byte) (st : Status) : Event.tx ch b st ∉ e.logEvents := by
  cases h : e.logKind <;> simp [Err.logEvents, h]

theorem tinit_notMem_logEvents (e : Err) (ch : Nat) (cfg : BitVec 16) (st : Status) :
    Event.tinit ch cfg st ∉ e.logEvents := by
  cases h : e.logKind <;> simp [Err.logEvents, h]

theorem tx_notMem_statusEvents (r : Status) (ch : Nat) (b : Byte) (st : Status) :
    Event.tx ch b st ∉ statusEvents r := by
  cases r <;> simp [statusEvents]

/-- A raise logs its error and transmits nothing. -/
theorem TransmitsValidly.raise {cfgs : Sparse 16} {s : State} (h : SameValidity cfgs s.tcfg) (e : Err) :
    TransmitsValidly cfgs e.logEvents (Machine.raise deployed e s) :=
  .of_quiet h rfl (tx_notMem_logEvents e) (tinit_notMem_logEvents e)

theorem ne_tinit_of_noTinit {script : List Action} (h : noTinit script = true) {a : Action} (ha : a ∈ script)
    (ch : Nat) (cfg : BitVec 16) : a ≠ .tinit ch cfg := by
  rintro rfl
  cases List.all_eq_true.1 h _ ha

/-- With no transport init among its actions a run leaves the configurations alone (R21). -/
theorem runScript_tcfg_of_noTinit (p : Params) {script : List Action} (h : noTinit script = true) (s : State) :
    (runScript p script s).1.tcfg = s.tcfg :=
  runScript_induction (fun s t => t.tcfg = s.tcfg) (fun h g => g.trans h) (fun s => by rw [passTime_eq])
    (fun _ _ => rfl) (fun _ => rfl) (fun e s => by simp [Machine.raise]) script
    (fun _ ha _ _ hd => doAction_tcfg (ne_tinit_of_noTinit h ha) hd) s

/-- A transmitting action of a running operation stands where the display's channel is valid, and no configuration
follows it (R149, R171). -/
theorem Running.of_transmits {a : Action} {rest : List Action} {s : State} (h : Running (a :: rest) s)
    (ha : a.transmits = true) : channelValid s deployed.dispCh = true ∧ noTinit rest = true := by
  obtain ⟨ph, v, hf, -⟩ := h.flow
  have hfirst := h.configuredFirst
  cases a <;> simp only [Action.transmits, Bool.false_eq_true] at ha
  all_goals
    simp only [Machine.flow, Option.ite_none_right_eq_some] at hf
    exact ⟨hf.1.2, hfirst⟩

/-- An action of a running operation transmits, if at all, on the valid display channel. -/
theorem Running.onValid {a : Action} {rest : List Action} {s : State} {cfgs : Sparse 16}
    (h : Running (a :: rest) s) (hc : SameValidity cfgs s.tcfg) :
    TransmitsOnValid deployed cfgs (actionEvents deployed a s) := by
  cases ha : a.transmits with
  | false => exact .of_noTx fun ch b st hm => by rw [transmits_of_tx_mem hm] at ha; cases ha
  | true =>
    obtain ⟨b, st, hevents⟩ := actionEvents_of_transmits ha s
    rw [hevents]
    refine .cons_tx ?_ b st (.of_noTx (tx_notMem_statusEvents st))
    rw [hc.valid]
    simpa [channelValid] using (h.of_transmits ha).1

/-- After a transmit the display's channel stays valid to the end of the run. -/
theorem Running.still_valid {a : Action} {rest : List Action} {s t u : State} (h : Running (a :: rest) s)
    (ha : a.transmits = true) (hd : (Machine.doAction deployed a s).Reaches u)
    (ht : runScript deployed rest u = (t, none)) : channelValid t deployed.dispCh = true := by
  obtain ⟨hv, hno⟩ := h.of_transmits ha
  have hrest : t.tcfg = u.tcfg := by
    have hrun := runScript_tcfg_of_noTinit deployed hno u
    rwa [ht] at hrun
  have hact : u.tcfg = s.tcfg := doAction_tcfg (fun ch cfg hc => by rw [hc] at ha; cases ha) hd
  rw [channelValid, hrest, hact]
  exact hv

/-- A run transmits only on a valid display channel, up to its pause, its end or its error. -/
theorem Running.transmitsValidly {script : List Action} {s t : State} {cfgs : Sparse 16} (h : Running script s)
    (hc : SameValidity cfgs s.tcfg) (ht : runScript deployed script s = (t, none)) :
    ∃ es, t.trace = s.trace ++ es ∧ TransmitsValidly cfgs es t := by
  induction script generalizing s cfgs with
  | nil =>
    obtain rfl : endOperation deployed s = t := congrArg Prod.fst ht
    exact ⟨[], by simp, .of_quiet hc rfl (by simp) (by simp)⟩
  | cons a rest ih =>
    have htrace : (Machine.passTime s).trace = s.trace := by rw [passTime_eq]
    have htcfg : (Machine.passTime s).tcfg = s.tcfg := by rw [passTime_eq]
    rw [← htcfg] at hc
    have hon := h.passTime.onValid hc
    unfold runScript at ht
    split at ht
    · obtain rfl : { s with todo := a :: rest } = t := congrArg Prod.fst ht
      exact ⟨[], by simp, .of_quiet hc htcfg.symm (by simp) (by simp)⟩
    · split at ht
      · rename_i u hd
        have hreach : (Machine.doAction deployed a (Machine.passTime s)).Reaches u := by rw [hd]; rfl
        obtain ⟨es, hes, hrest⟩ := ih (h.passTime.goesOn hd) (hc.doAction hreach) ht
        exact ⟨_, by rw [hes, (doAction_effect hreach).1.trace, htrace, List.append_assoc],
          hrest.append hon fun ch b st hm => h.passTime.still_valid (transmits_of_tx_mem hm) hreach ht⟩
      · rename_i e u hd
        have hreach : (Machine.doAction deployed a (Machine.passTime s)).Reaches u := by rw [hd]; rfl
        obtain rfl : Machine.raise deployed e u = t := congrArg Prod.fst ht
        refine ⟨_, ?_, TransmitsValidly.append hon (.raise (hc.doAction hreach) e) fun ch b st hm => ?_⟩
        · simp [Machine.raise, (doAction_effect hreach).1.trace, htrace]
        · have ha := transmits_of_tx_mem hm
          rcases doAction_raises hd with ⟨pp, rfl, -⟩ | ⟨c, cfg, rfl, -⟩ <;> cases ha
      · cases ht

/-- Every turn but the reset input's transmits only on a valid display channel. -/
theorem Turn.transmitsValidly {s t : State} (hinv : Inv s) (h : Turn s t)
    (hreset : ∀ rest, s.inputs ≠ ⟨0, .reset⟩ :: rest) :
    ∃ es, t.trace = s.trace ++ es ∧ TransmitsValidly s.tcfg es t := by
  have hsame : SameValidity s.tcfg s.tcfg := .refl hinv.cfgMap
  have hreg := hinv.registers
  cases h with
  | lands act rest hin ht =>
    cases act with
    | reset => exact absurd hin (hreset rest)
    | writeTxt a v =>
      subst ht
      exact ⟨[], by simp [landInput, hostWrite], .of_quiet hsame rfl (by simp) (by simp)⟩
  | resumes hdue hb ht =>
    have hrun : Running s.todo { s with todo := [] } :=
      ⟨hreg.of_eq rfl rfl rfl rfl rfl rfl, hb, hinv.position, hinv.configuredFirst⟩
    exact hrun.transmitsValidly hsame ht
  | runs cw rest i hb hp ht =>
    have hacc : Registers (accept cw { s with port := rest }) := hreg.of_eq rfl rfl rfl rfl rfl rfl
    have hph : (accept cw { s with port := rest }).ph = .idle := (hinv.idleWhenDone hb).1
    rcases exec_next_cases ht with ⟨e, k, -, rfl⟩ | ⟨script, hscr, hrun⟩
    · exact ⟨_, rfl, .raise (s := accept cw { s with port := rest }) hsame e⟩
    · have hstart : Running script (accept cw { s with port := rest }) :=
        ⟨hacc, rfl, by rw [hph]; exact hscr.flows, hscr.transportFirst⟩
      exact hstart.transmitsValidly hsame hrun
  | reports cw rest hb hp ht =>
    subst ht
    exact ⟨_, rfl, .of_quiet hsame rfl (tx_notMem_logEvents .illegalCommand) (tinit_notMem_logEvents .illegalCommand)⟩
  | waits hb hp ht =>
    rw [ht, passTime_eq]
    exact ⟨[], by simp, .of_quiet hsame rfl (by simp) (by simp)⟩

/-- Settles O12: the reset input empties the trace, every other turn transmits on a valid channel. -/
theorem transmitsOnlyOnAValidDisplayChannel : Obligations.TransmitsOnlyOnAValidDisplayChannel := by
  intro s t es hinv hstep htrace
  by_cases hreset : ∃ rest, s.inputs = ⟨0, .reset⟩ :: rest
  · obtain ⟨rest, hin⟩ := hreset
    rw [step_of_due hin] at hstep
    obtain rfl := Host.Outcome.next.inj hstep
    obtain ⟨-, rfl⟩ := List.append_eq_nil_iff.1 htrace.symm
    exact ⟨fun pre ch b st post he => absurd he (by simp), fun hno => absurd hin (hno rest)⟩
  · have hno : ∀ rest, s.inputs ≠ ⟨0, .reset⟩ :: rest := fun rest hin => hreset ⟨rest, hin⟩
    obtain ⟨es', htrace', hon, hsame, hstill⟩ := (turn_of_step hstep).transmitsValidly hinv hno
    obtain rfl : es' = es := List.append_cancel_left (htrace'.symm.trans htrace)
    refine ⟨fun pre ch b st post he => ?_, fun _ => hsame.valid⟩
    obtain ⟨rfl, hv⟩ := hon pre ch b st post he
    exact ⟨rfl, hv, hstill deployed.dispCh b st (by rw [he]; simp)⟩

end Sys2Proof.Machine

/-! ### Encoding, decoding and the pseudo-operations -/

namespace Sys2Proof.Machine

/-! #### Fields side by side, and masks -/

section
variable {k l m n : Nat}

/-- Four fields laid side by side are read back at their places. -/
theorem extractLsb'_append_four (w : BitVec k) (x : BitVec l) (y : BitVec m) (z : BitVec n) :
    (w ++ x ++ y ++ z).extractLsb' 0 n = z ∧ (w ++ x ++ y ++ z).extractLsb' n m = y ∧
      (w ++ x ++ y ++ z).extractLsb' (n + m) l = x ∧ (w ++ x ++ y ++ z).extractLsb' (n + m + l) k = w := by
  simp [BitVec.extractLsb'_append_eq_of_le, BitVec.extractLsb'_append_eq_right, Nat.add_assoc]

/-- A word is its high part and its low part. -/
theorem append_extractLsb'_two (x : BitVec (k + n)) : x.extractLsb' n k ++ x.extractLsb' 0 n = x := by
  rw [BitVec.extractLsb'_append_extractLsb'_eq_extractLsb' (Nat.zero_add n).symm, BitVec.extractLsb'_eq_self]

/-- A word is its four fields. -/
theorem append_extractLsb'_four (x : BitVec (k + l + m + n)) :
    x.extractLsb' (n + m + l) k ++ x.extractLsb' (n + m) l ++ x.extractLsb' n m ++ x.extractLsb' 0 n = x := by
  rw [BitVec.extractLsb'_append_extractLsb'_eq_extractLsb' rfl,
    BitVec.extractLsb'_append_extractLsb'_eq_extractLsb' rfl, append_extractLsb'_two]

/-- A mask of the low part. -/
theorem and_lowPart (x : BitVec (k + n)) : x &&& (0#k ++ BitVec.allOnes n) = 0#k ++ x.extractLsb' 0 n := by
  conv_lhs => rw [← append_extractLsb'_two x]
  rw [BitVec.and_append, BitVec.and_zero, BitVec.and_allOnes]

/-- A mask of the lower three of four fields. -/
theorem and_lowFields (x : BitVec (k + l + m + n)) :
    x &&& (0#k ++ BitVec.allOnes l ++ BitVec.allOnes m ++ BitVec.allOnes n) =
      0#k ++ x.extractLsb' (n + m) l ++ x.extractLsb' n m ++ x.extractLsb' 0 n := by
  conv_lhs => rw [← append_extractLsb'_four x]
  simp only [BitVec.and_append, BitVec.and_zero, BitVec.and_allOnes]

/-- A mask that covers a field leaves it as it is. -/
theorem extractLsb'_and_of_covers (x : BitVec k) {mask : BitVec k}
    (h : mask.extractLsb' m n = BitVec.allOnes n) : (x &&& mask).extractLsb' m n = x.extractLsb' m n := by
  rw [BitVec.extractLsb'_and, h, BitVec.and_allOnes]

end

theorem word_and_ones (x : Word) : x &&& 0xFFFFFFFF#32 = x := BitVec.and_allOnes

/-! #### The decoder undoes the encoder -/

theorem decode_commandWord (op : BitVec 8) (a b : Word) : decode (commandWord op a b) = decodeFields op a b := by
  simp [decode]

/-- The operands of an operation lie where its decoding reads them (R72 to R76). -/
theorem decode_encode (i : Instr) : decode (encode i) = .ok i := by
  rw [encode, decode_commandWord]
  cases i with
  | wrctl pwm peak sleep =>
    obtain ⟨hpwm, hpeak, hsleep, -⟩ := extractLsb'_append_four 0#15 sleep peak pwm
    exact congrArg Except.ok (congr (congrArg₂ Instr.wrctl hpwm hpeak) hsleep)
  | wrglyph c0 c1 c2 c3 =>
    obtain ⟨h3, h2, h1, h0⟩ := extractLsb'_append_four c0 c1 c2 c3
    exact congrArg Except.ok (congr (congr (congrArg₂ Instr.wrglyph h0 h1) h2) h3)
  | scroll base => exact congrArg (Except.ok ∘ Instr.scroll) BitVec.extractLsb'_append_eq_right
  | _ => rfl

/-! #### An operation's word is what its decoding read -/

/-- Every operation's word has the layout of R70 and R71. -/
theorem layout_statement : ∀ i : Instr, Laws.Layout.Statement i
  | .seldiv .. => Laws.Layout.seldiv ..
  | .configure .. => Laws.Layout.configure ..
  | .wrctl .. => Laws.Layout.wrctl ..
  | .wrglyph .. => Laws.Layout.wrglyph ..
  | .clear => Laws.Layout.clear
  | .init .. => Laws.Layout.init ..
  | .scroll .. => Laws.Layout.scroll ..
  | .renderInt .. => Laws.Layout.renderInt ..
  | .renderFloat .. => Laws.Layout.renderFloat ..
  | .renderErr .. => Laws.Layout.renderErr ..

/-- Every operation's decoding reads the whole of `OP` (R77). -/
theorem opField_and_usedBits (cw : CmdWord) (i : Instr) : opField (cw &&& i.usedBits) = opField cw := by
  obtain ⟨-, -, -, -, hused⟩ := layout_statement i
  rw [opField_and, hused]
  exact BitVec.and_allOnes

/-- The operands of `WRCTL` are the low 17 bits of `A` (R75). -/
theorem operandA_wrctl (a : Word) :
    (Instr.wrctl (a.extractLsb' 0 8) (a.extractLsb' 8 8) (a.extractLsb' 16 1)).operandA = a &&& 0x0001FFFF :=
  (and_lowFields (k := 15) (l := 1) (m := 8) (n := 8) a).symm

/-- Those of `WRGLYPH` are all of it (R74). -/
theorem operandA_wrglyph (a : Word) :
    (Instr.wrglyph (a.extractLsb' 24 8) (a.extractLsb' 16 8) (a.extractLsb' 8 8) (a.extractLsb' 0 8)).operandA = a :=
  append_extractLsb'_four (k := 8) (l := 8) (m := 8) (n := 8) a

/-- That of `SCROLL` is its low byte (R76). -/
theorem operandA_scroll (a : Word) : (Instr.scroll (a.extractLsb' 0 8)).operandA = a &&& 0x000000FF :=
  (and_lowPart (k := 24) (n := 8) a).symm

/-- What a successful decoding says of the three fields. -/
theorem decodeFields_ok {op : BitVec 8} {a b : Word} {i : Instr} (h : decodeFields op a b = .ok i) :
    op = i.opcode ∧ i.operandA = a &&& aField i.usedBits ∧ i.operandB = b &&& bField i.usedBits := by
  have hop {n : Nat} (hn : op.toNat = n) : op = BitVec.ofNat 8 n := by
    rw [← hn, BitVec.ofNat_toNat, BitVec.setWidth_eq]
  have whole (x : Word) : x = x &&& 0xFFFFFFFF := (word_and_ones x).symm
  have unused (x : Word) : 0 = x &&& 0 := BitVec.and_zero.symm
  unfold decodeFields at h
  split at h <;> cases h <;> simp only [Instr.usedBits, aField_commandWord, bField_commandWord]
  · exact ⟨hop ‹_›, whole a, whole b⟩
  · exact ⟨hop ‹_›, whole a, whole b⟩
  · exact ⟨hop ‹_›, operandA_wrctl a, unused b⟩
  · exact ⟨hop ‹_›, (operandA_wrglyph a).trans (whole a), unused b⟩
  · exact ⟨hop ‹_›, unused a, unused b⟩
  · exact ⟨hop ‹_›, whole a, unused b⟩
  · exact ⟨hop ‹_›, operandA_scroll a, unused b⟩
  · exact ⟨hop ‹_›, whole a, unused b⟩
  · exact ⟨hop ‹_›, whole a, unused b⟩
  · exact ⟨hop ‹_›, whole a, unused b⟩

theorem opField_of_decode {cw : CmdWord} {i : Instr} (h : decode cw = .ok i) : opField cw = i.opcode :=
  (decodeFields_ok h).1

theorem encode_of_decode {cw : CmdWord} {i : Instr} (h : decode cw = .ok i) : encode i = cw &&& i.usedBits := by
  obtain ⟨hop, ha, hb⟩ := decodeFields_ok h
  obtain ⟨hopField, haField, hbField, -, -⟩ := layout_statement i
  refine cmdWord_ext ?_ ?_ ?_
  · rw [opField_and_usedBits, hopField, hop]
  · rw [aField_and, haField, ha]
  · rw [bField_and, hbField, hb]

theorem decodeFields_of_definedOpcode {op : BitVec 8} (h : op ∈ definedOpcodes) (a b : Word) :
    ∃ i, decodeFields op a b = .ok i := by
  simp only [definedOpcodes, List.mem_cons, List.not_mem_nil, or_false] at h
  rcases h with rfl | rfl | rfl | rfl | rfl | rfl | rfl | rfl | rfl | rfl <;> exact ⟨_, rfl⟩

theorem decode_ok_iff_definedOpcode (cw : CmdWord) : (∃ i, decode cw = .ok i) ↔ opField cw ∈ definedOpcodes := by
  refine ⟨fun ⟨i, h⟩ => ?_, fun h => decodeFields_of_definedOpcode h _ _⟩
  obtain ⟨-, -, -, hmem, -⟩ := layout_statement i
  rwa [opField_of_decode h]

/-- Settles O1: operands are laid out and read back field by field, and an opcode decodes if it has a row. -/
theorem decodeAndEncodeAgree : Obligations.DecodeAndEncodeAgree :=
  ⟨fun i _ => decode_encode i, fun _ _ => encode_of_decode, decode_ok_iff_definedOpcode⟩

/-- Settles O3, by running the decoder. -/
theorem specCommandWordsDecode : Obligations.SpecCommandWordsDecode := by
  unfold Obligations.SpecCommandWordsDecode
  decide

/-- Settles O32: the control byte is four fields side by side. -/
theorem controlByteLayout : Obligations.ControlByteLayout := fun pwm peak sleep =>
  extractLsb'_append_four 0#1 sleep (peak.extractLsb' 0 2) (pwm.extractLsb' 0 4)

/-! #### Unused bits -/

/-- The decoder masks out what an operation does not use (R77). -/
theorem decode_and_usedBits {cw : CmdWord} {i : Instr} (h : opField cw = i.opcode) :
    decode (cw &&& i.usedBits) = decode cw := by
  rw [decode, decode, opField_and_usedBits, aField_and, bField_and, h]
  cases i <;> simp [decodeFields, Instr.opcode, Instr.usedBits, extractLsb'_and_of_covers, word_and_ones]

/-- Two words that agree on the bits that the operation of the one uses decode alike. -/
theorem decode_of_usedBits {cw cw' : CmdWord} {i : Instr} (h : decode cw = .ok i)
    (hsame : cw' &&& i.usedBits = cw &&& i.usedBits) : decode cw' = .ok i := by
  have hop' : opField cw' = i.opcode := by
    rw [← opField_and_usedBits cw' i, hsame, opField_and_usedBits, opField_of_decode h]
  calc decode cw' = decode (cw' &&& i.usedBits) := (decode_and_usedBits hop').symm
    _ = decode (cw &&& i.usedBits) := by rw [hsame]
    _ = decode cw := decode_and_usedBits (opField_of_decode h)
    _ = .ok i := h

theorem accept_withOperands {cw cw' : CmdWord} (h : opField cw' = opField cw) (s : State) :
    accept cw' s = withOperands (aField cw') (bField cw') (accept cw s) := by
  rw [accept, h]
  rfl

/-- No operation's checks read the latches. -/
theorem planOf_withOperands (p : Params) (i : Instr) (a b : Word) (s : State) :
    planOf p i (withOperands a b s) = planOf p i s := by
  cases i <;> rfl

theorem perform_withOperands (p : Params) (plan : Except Err (List Action)) (a b : Word) (s : State) :
    perform p plan (withOperands a b s) = (withOperands a b (perform p plan s).1, (perform p plan s).2) := by
  cases plan with
  | error e => rfl
  | ok script => exact runScript_withOperands p script a b s

theorem runOutcome_fault {r : State × Option Fault} {f : Fault} : runOutcome r = .fault f ↔ r.2 = some f := by
  obtain ⟨u, g⟩ := r
  cases g <;> simp [runOutcome]

theorem exec_withOperands_next {i : Instr} {s t : State} (a b : Word) (h : exec i s = .next t) :
    exec i (withOperands a b s) = .next (withOperands a b t) := by
  rw [exec_eq_perform, runOutcome_next] at h ⊢
  rw [planOf_withOperands, perform_withOperands]
  exact h.imp_right (congrArg (withOperands a b))

theorem exec_withOperands_fault {i : Instr} {s : State} {f : Fault} (a b : Word) (h : exec i s = .fault f) :
    exec i (withOperands a b s) = .fault f := by
  rw [exec_eq_perform, runOutcome_fault] at h ⊢
  rwa [planOf_withOperands, perform_withOperands]

/-- Settles O2: the two words decode alike, and an operation runs alike whatever the latches hold. -/
theorem unusedBitsAreIgnored : Obligations.UnusedBitsAreIgnored := by
  intro cw cw' i hdec hsame
  have hdec' : decode cw' = .ok i := decode_of_usedBits hdec hsame
  refine ⟨hdec', fun s rest hdue hb => ?_⟩
  have hstep {w : CmdWord} (hw : decode w = .ok i) :
      step { s with port := w :: rest } = exec i (accept w { s with port := rest }) := by
    rw [step_of_command (s := { s with port := w :: rest }) hdue hb rfl, runCommand, hw]
  have hop : opField cw' = opField cw := (opField_of_decode hdec').trans (opField_of_decode hdec).symm
  rw [hstep hdec, hstep hdec', accept_withOperands hop]
  exact ⟨fun t => exec_withOperands_next _ _, fun f => exec_withOperands_fault _ _⟩

/-! #### Pseudo-operations -/

theorem afterAnswers_ch4_update (n : Nat) (f : Four) (s : State) :
    afterAnswers n { s with ch4 := f } = { afterAnswers n s with ch4 := f } := by
  induction n generalizing s with
  | zero => rfl
  | succ n ih =>
    have huse : useAnswer { s with ch4 := f } = { useAnswer s with ch4 := f } := by simp only [useAnswer_eq]
    rw [afterAnswers, huse, ih, afterAnswers]

/-- A window of given bytes leaves `CH4` as it is and does not depend on it. -/
theorem windowDone_ch4_update (p : Params) (sp : Space) (payload : List Byte) (f : Four) (s : State) :
    windowDone p sp payload { s with ch4 := f } = { windowDone p sp payload s with ch4 := f } := by
  have hahead := answersAhead_congr p (payload.length + 1) (s := s) (t := { s with ch4 := f }) rfl rfl
  simp only [windowDone, hahead, afterAnswers_ch4_update]

/-- The characters loaded for a frame are forgotten when the operation ends (R14). -/
theorem runScript_loadChars_frameWindow (p : Params) (f : Four) (s : State) (hin : s.inputs = []) :
    runScript p (.loadChars f :: frameWindow p) s = (endOperation p (windowDone p .dot (frame p f) s), none) := by
  rw [runScript_cons_goesOn hin rfl, frameWindow, runScript_window_end p .dot frameData { s with ch4 := f } hin,
    map_datumByte_frameData, windowDone_ch4_update]
  rfl

theorem runScript_clearWindow (p : Params) (s : State) (hin : s.inputs = []) :
    runScript p (clearWindow p) s = (endOperation p (windowDone p .dot clearFrame s), none) := by
  rw [clearWindow, runScript_window_end p .dot _ s hin, map_datumByte_byte]

/-- R88 (a): refused alike, or one window of the same bytes. -/
theorem exec_clear_eq_wrglyph_spaces (s : State) (hin : s.inputs = []) :
    exec .clear s = exec (.wrglyph 32 32 32 32) s := by
  rw [exec_eq_perform, exec_eq_perform]
  congr 1
  cases hv : channelValid s deployed.dispCh with
  | false => simp [planOf, planClear, planGlyphs, hv, perform]
  | true =>
    have hspaces : ∀ c ∈ [space, space, space, space], c.toNat < deployed.glyphCount := by
      simpa [hasGlyph] using deployed_hasGlyph_space
    have hclear : planOf deployed .clear s = .ok (clearWindow deployed) := by simp [planOf, planClear, hv]
    have hglyphs : planOf deployed (.wrglyph 32 32 32 32) s =
        .ok (.loadChars ⟨32, 32, 32, 32⟩ :: frameWindow deployed) := planGlyphs_of_glyphs hv hspaces
    rw [hclear, hglyphs, perform, perform, runScript_clearWindow _ _ hin, runScript_loadChars_frameWindow _ _ _ hin,
      frame_spaces]

/-- The other sleep bit (R88 (c)). -/
theorem not_eq_one_sub (b : BitVec 1) : ~~~b = 1 - b := by
  revert b
  decide

/-- Settles O38: a rendering is by definition the plan of its four characters, and the assembler pads the fixed
fields to bytes. -/
theorem pseudoOperationsAreEquivalences : Obligations.PseudoOperationsAreEquivalences := by
  have hpwm : 0#4 ++ deployed.pwmFixed = deployed.pwmFixed.setWidth 8 :=
    (BitVec.setWidth_eq_append (by decide)).symm
  have hpeak : 0#6 ++ deployed.peakFixed = deployed.peakFixed.setWidth 8 :=
    (BitVec.setWidth_eq_append (by decide)).symm
  refine ⟨exec_clear_eq_wrglyph_spaces, fun _ _ => rfl, fun _ _ => rfl, fun _ _ => rfl, ?_, ?_⟩
  · rw [← hpwm, ← hpeak]
    rfl
  · rw [← hpwm, ← hpeak, ← not_eq_one_sub]
    rfl

end Sys2Proof.Machine

/-! ### The Divisor Selector and `SELDIV` -/

namespace Sys2Proof.Machine

/-! #### The entries of a strictly increasing table -/

section
variable {T : List Nat} (hinc : T.Pairwise (· < ·))
include hinc

theorem getD_lt_getD_of_increasing {i j : Nat} (hij : i < j) (hj : j < T.length) : T.getD i 0 < T.getD j 0 := by
  rw [List.getD_eq_getElem _ _ (hij.trans hj), List.getD_eq_getElem _ _ hj]
  exact List.pairwise_iff_getElem.1 hinc i j _ hj hij

theorem getD_le_getD_of_increasing {i j : Nat} (hij : i ≤ j) (hj : j < T.length) : T.getD i 0 ≤ T.getD j 0 := by
  rcases hij.lt_or_eq with hlt | rfl
  · exact (getD_lt_getD_of_increasing hinc hlt hj).le
  · exact le_rfl

end

/-! #### The search -/

/-- Entry `k` is what the last case of R101 asks for: the one the search of R104 finds. -/
def Brackets (T : List Nat) (want k : Nat) : Prop :=
  1 ≤ k ∧ k ≤ T.length - 2 ∧ T.getD (k - 1) 0 < want ∧ want ≤ T.getD k 0

/-- Were such an entry later than another, its predecessor would reach `want` as well. -/
theorem Brackets.le {T : List Nat} {want j k : Nat} (hinc : T.Pairwise (· < ·)) (hj : Brackets T want j)
    (hk : Brackets T want k) : k ≤ j := by
  obtain ⟨-, -, -, hreach⟩ := hj
  obtain ⟨-, hlast, hprev, -⟩ := hk
  by_contra hlater
  have hle : T.getD j 0 ≤ T.getD (k - 1) 0 := getD_le_getD_of_increasing hinc (by omega) (by omega)
  omega

/-- No tie is left to resolve (R104). -/
theorem Brackets.unique {T : List Nat} {want j k : Nat} (hinc : T.Pairwise (· < ·)) (hj : Brackets T want j)
    (hk : Brackets T want k) : j = k :=
  le_antisymm (hk.le hinc hj) (hj.le hinc hk)

/-- The first entry that reaches `want` is such an entry, where the clamps do not apply (R101). -/
theorem exists_brackets {T : List Nat} {want : Nat} (hfirst : T.getD 0 0 < want)
    (hlast : want ≤ T.getD (T.length - 2) 0) : ∃ k, Brackets T want k := by
  have hreach : ∃ k, want ≤ T.getD k 0 := ⟨_, hlast⟩
  have hpos : 1 ≤ Nat.find hreach := (Nat.find_pos hreach).2 (by omega)
  exact ⟨Nat.find hreach, hpos, Nat.find_min' hreach hlast,
    not_le.1 (Nat.find_min hreach (Nat.sub_lt hpos one_pos)), Nat.find_spec hreach⟩

/-- The search finds the entry if there is one. -/
theorem brackets_searchDivisor {T : List Nat} {want k : Nat} (h : Brackets T want k) :
    Brackets T want (searchDivisor T want) := by
  unfold searchDivisor
  split
  case h_1 j hj =>
    have hmem := List.mem_range.1 (List.mem_of_find?_eq_some hj)
    have htest := List.find?_some hj
    simp only [Bool.and_eq_true, decide_eq_true_eq] at htest
    obtain ⟨⟨hpos, hprev⟩, hreach⟩ := htest
    exact ⟨hpos, by omega, hprev, hreach⟩
  case h_2 hnone =>
    obtain ⟨hpos, hlast, hprev, hreach⟩ := h
    have hfails := List.find?_eq_none.1 hnone k (List.mem_range.2 (by omega))
    simp only [Bool.and_eq_true, decide_eq_true_eq] at hfails
    exact absurd ⟨⟨hpos, hprev⟩, hreach⟩ hfails

/-! #### The selection -/

/-- The four cases of R101, as the rule states them and without its order. -/
inductive Selection (T : List Nat) (want : Nat) : Nat × Warn → Prop where
  | clampLow (hlen : 2 ≤ T.length) (hwant : T.getD (T.length - 2) 0 < want) : Selection T want (T.length - 1, .low)
  | clampHigh (hwant : want ≤ T.getD 0 0) : Selection T want (0, .high)
  | oneEntry (hlen : T.length = 1) (hwant : T.getD 0 0 < want) : Selection T want (0, .low)
  | found (k : Nat) (h : Brackets T want k) : Selection T want (k, .none)

/-- Some case applies to every `want` (R105). -/
theorem exists_selection {T : List Nat} (hne : T ≠ []) (want : Nat) : ∃ r, Selection T want r := by
  have hlen := List.length_pos_iff.2 hne
  by_cases hfirst : want ≤ T.getD 0 0
  · exact ⟨_, .clampHigh hfirst⟩
  · by_cases hone : T.length = 1
    · exact ⟨_, .oneEntry hone (by omega)⟩
    · by_cases hlast : want ≤ T.getD (T.length - 2) 0
      · obtain ⟨k, hk⟩ := exists_brackets (by omega) hlast
        exact ⟨_, .found k hk⟩
      · exact ⟨_, .clampLow (by omega) (by omega)⟩

/-- The case that applies gives the result: the cases exclude each other, so the order of the tests does not
matter (R101). -/
theorem selDiv_of_selection {T : List Nat} {bus target : Nat} {r : Nat × Warn} (hinc : T.Pairwise (· < ·))
    (h : Selection T (bus / target) r) : selDiv T bus target = r := by
  unfold selDiv
  cases h with
  | clampLow hlen hwant => exact if_pos ⟨hlen, hwant⟩
  | clampHigh hwant =>
    have hnotLow : ¬ (2 ≤ T.length ∧ bus / target > T.getD (T.length - 2) 0) := fun ⟨hlen, hlow⟩ => by
      have hle : T.getD 0 0 ≤ T.getD (T.length - 2) 0 := getD_le_getD_of_increasing hinc (by omega) (by omega)
      omega
    rw [if_neg hnotLow, if_pos hwant]
  | oneEntry hlen hwant => rw [if_neg (by omega), if_neg (by omega), if_pos hlen]
  | found k hk =>
    have hsearch := Brackets.unique hinc (brackets_searchDivisor hk) hk
    obtain ⟨hpos, hlast, hprev, hreach⟩ := hk
    have hfirst : T.getD 0 0 ≤ T.getD (k - 1) 0 := getD_le_getD_of_increasing hinc (by omega) (by omega)
    have hle : T.getD k 0 ≤ T.getD (T.length - 2) 0 := getD_le_getD_of_increasing hinc hlast (by omega)
    rw [if_neg (by omega), if_neg (by omega), if_neg (by omega), hsearch]

/-- What the selector returns (R101). -/
theorem selDiv_eq_iff {T : List Nat} {bus target : Nat} {r : Nat × Warn} (hne : T ≠ [])
    (hinc : T.Pairwise (· < ·)) : selDiv T bus target = r ↔ Selection T (bus / target) r := by
  refine ⟨fun h => ?_, selDiv_of_selection hinc⟩
  obtain ⟨r', hr'⟩ := exists_selection hne (bus / target)
  rwa [← h, selDiv_of_selection hinc hr']

/-- The selected index is one of the table (R105). -/
theorem Selection.lt_length {T : List Nat} {want : Nat} {r : Nat × Warn} (hne : T ≠ []) (h : Selection T want r) :
    r.1 < T.length := by
  have hlen := List.length_pos_iff.2 hne
  cases h with
  | clampLow => exact Nat.sub_lt hlen one_pos
  | clampHigh => exact hlen
  | oneEntry => exact hlen
  | found k hk =>
    obtain ⟨hpos, hlast, -, -⟩ := hk
    change k < T.length
    omega

/-- Settles O22: each case gives its result, and the found entry is the only one of its kind. -/
theorem selectionFollowsTheAlgorithm : Obligations.SelectionFollowsTheAlgorithm := by
  intro T bus target hne hinc _ _
  refine ⟨((selDiv_eq_iff hne hinc).1 rfl).lt_length hne,
    fun hlen hwant => selDiv_of_selection hinc (.clampLow hlen hwant),
    fun hwant => selDiv_of_selection hinc (.clampHigh hwant),
    fun hlen hwant => selDiv_of_selection hinc (.oneEntry hlen hwant), fun _ hlast hfirst => ?_⟩
  obtain ⟨k, hk⟩ := exists_brackets hfirst hlast
  rw [selDiv_of_selection hinc (.found k hk)]
  exact ⟨rfl, fun j => ⟨fun h => h ▸ hk, fun hj => Brackets.unique hinc hj hk⟩⟩

/-! #### The deployment's map -/

theorem divisors_deployed : divisors deployed.presc = [2, 4, 8, 16, 32, 64, 128, 256] := rfl

/-- Settles O23: each interval of `want` is bracketed by two entries, or clamped. -/
theorem selectionMapOfThisDeployment : Obligations.SelectionMapOfThisDeployment := by
  refine ⟨divisors_deployed, fun bus target _ _ => selDiv_of_selection (by rw [divisors_deployed]; decide) ?_⟩
  rw [divisors_deployed]
  generalize bus / target = want
  have found (k : Nat) (hpos : 1 ≤ k) (hlast : k ≤ 6)
      (hprev : ¬ want ≤ [2, 4, 8, 16, 32, 64, 128, 256].getD (k - 1) 0)
      (hreach : want ≤ [2, 4, 8, 16, 32, 64, 128, 256].getD k 0) :
      Selection [2, 4, 8, 16, 32, 64, 128, 256] want (k, .none) := .found k ⟨hpos, hlast, not_le.1 hprev, hreach⟩
  split_ifs with h2 h4 h8 h16 h32 h64 h128
  · exact .clampHigh h2
  · exact found 1 (by decide) (by decide) h2 h4
  · exact found 2 (by decide) (by decide) h4 h8
  · exact found 3 (by decide) (by decide) h8 h16
  · exact found 4 (by decide) (by decide) h16 h32
  · exact found 5 (by decide) (by decide) h32 h64
  · exact found 6 (by decide) (by decide) h64 h128
  · exact .clampLow (by decide) (not_le.1 h128)

/-! #### What the selected divisor guarantees -/

/-- With `want` in reach and not clamped to the first entry, the selected divisor is the first not below `want`
(R106 (a)). -/
theorem Selection.tightest {T : List Nat} {want k : Nat} {w : Warn} (h : Selection T want (k, w))
    (hw : w = .none ∨ (w = .low ∧ want ≤ T.getD (T.length - 1) 0)) :
    want ≤ T.getD k 0 ∧ (1 ≤ k → T.getD (k - 1) 0 < want) := by
  cases h with
  | clampLow hlen hwant =>
    obtain hnone | ⟨-, hreach⟩ := hw
    · cases hnone
    · exact ⟨hreach, fun _ => hwant⟩
  | clampHigh => simp at hw
  | oneEntry hlen hwant =>
    obtain hnone | ⟨-, hreach⟩ := hw
    · cases hnone
    · rw [hlen] at hreach
      exact ⟨hreach, nofun⟩
  | found k hk =>
    obtain ⟨-, -, hprev, hreach⟩ := hk
    exact ⟨hreach, fun _ => hprev⟩

/-- A divisor equal to the floored quotient meets the target exactly where nothing was cut off (R106 (b)). -/
theorem le_div_mul_iff (bus target : Nat) : bus ≤ bus / target * target ↔ bus % target = 0 := by
  have hsplit := Nat.div_add_mod' bus target
  omega

/-- Settles O24. -/
theorem selectedDivisorIsTightest : Obligations.SelectedDivisorIsTightest := by
  rintro T bus target k d w hne hinc _ htarget hsel rfl
  refine ⟨fun hw => ?_, fun hlt => ?_, fun heq => ?_⟩
  · obtain ⟨hreach, hprev⟩ := ((selDiv_eq_iff hne hinc).1 hsel).tightest hw
    exact ⟨hreach, fun hk => ⟨hprev hk,
      (Nat.mul_lt_mul_of_pos_right (hprev hk) htarget).trans_le (Nat.div_mul_le_self bus target)⟩⟩
  · exact ((Nat.div_lt_iff_lt_mul htarget).1 hlt).le
  · rw [← heq]
    exact le_div_mul_iff bus target

/-! #### `SELDIV` -/

/-- The state a `SELDIV` leaves whose selection is `r`: the warning noted, `RES` written (R100). -/
def seldivDone (p : Params) (r : Nat × Warn) (s : State) : State :=
  endOperation p
    { s with
      res := BitVec.ofNat 8 r.1
      warnLow := s.warnLow || r.2 = .low
      warnHigh := s.warnHigh || r.2 = .high
      trace := s.trace ++ r.2.logEvents }

/-- All that a `SELDIV` does with positive operands and no input of the host pending. -/
theorem perform_planSeldiv (p : Params) {bus target : Word} {s : State} (hin : s.inputs = []) (hbus : bus ≠ 0)
    (htarget : target ≠ 0) :
    perform p (planSeldiv p bus target) s =
      (seldivDone p (selDiv (divisors p.presc) bus.toNat target.toNat) s, none) := by
  rw [planSeldiv, if_neg (not_or.2 ⟨hbus, htarget⟩), perform,
    runScript_cons_goesOn hin (congrArg _ (noteWarning_eq _ s))]
  exact runScript_cons_goesOn hin rfl

/-- Settles O25: the selection's two actions, or the refusal of a zero before them. -/
theorem seldivResult : Obligations.SeldivResult := by
  intro bus target s hin
  refine ⟨fun hbus htarget => ?_, fun hzero => exec_refused (if_pos hzero)⟩
  exact ⟨_, exec_of_perform (perform_planSeldiv deployed hin hbus htarget), rfl, rfl, rfl, ⟨rfl, rfl⟩,
    ⟨rfl, rfl⟩, ⟨rfl, rfl, rfl, fun _ => rfl, rfl, rfl, rfl⟩,
    ⟨fun _ => rfl, fun _ => rfl⟩, ⟨rfl, rfl, rfl, rfl⟩, rfl⟩

end Sys2Proof.Machine

/-! ### The Transport Configurator -/

namespace Sys2Proof.Machine

/-! #### What a configuration leaves, however it ends -/

/-- A configuration of channel `ch` is over, with or without an error: its gate is on (R122), and the other
gates, the host's side, the pins, `TXF` and `RES` are as they were (R126, R127). -/
structure ConfigurationFrame (ch : Nat) (s t : State) : Prop where
  gate : Sparse.read t.clken ch = 1
  otherGates : ∀ c, c ≠ ch → Sparse.read t.clken c = Sparse.read s.clken c
  ended : Over t
  host : KeepsHost s t
  pins : KeepsPins s t
  txf : t.txf = s.txf
  res : t.res = s.res

/-- After its first two actions a configuration writes `TCFG`, `ERR`, the trace and the draws only. -/
theorem ConfigurationFrame.of_gatedAndWarned {p : Params} {ch : Nat} {s u : State} (hgates : Sparse.wf s.clken = true)
    (hu : u = { gatedAndWarned p ch s with
      tcfg := u.tcfg, err := u.err, trace := u.trace, answers := u.answers, fresh := u.fresh }) :
    ConfigurationFrame ch s (endOperation p u) := by
  rw [hu]
  exact
    { gate := Sparse.read_write_same _ _ _ hgates
      otherGates := fun c hc => Sparse.read_write_other _ _ _ _ hc
      ended := ⟨rfl, rfl⟩
      host := ⟨rfl, rfl, rfl, fun _ => rfl, rfl, rfl, rfl⟩
      pins := ⟨rfl, rfl, rfl, rfl⟩
      txf := rfl
      res := rfl }

/-- An event emitted before a configuration is only in the trace (R30). -/
theorem ConfigurationFrame.of_emit {ch : Nat} {e : Event} {s t : State} (h : ConfigurationFrame ch (emit e s) t) :
    ConfigurationFrame ch s t := by
  obtain ⟨hgate, hother, hended, hhost, hpins, htxf, hres⟩ := h
  exact ⟨hgate, hother, hended, ⟨hhost.op, hhost.a, hhost.b, hhost.text, hhost.port, hhost.inputs, hhost.dev0⟩,
    ⟨hpins.ce, hpins.rs, hpins.rst, hpins.ph⟩, htxf, hres⟩

theorem Reports.of_emit {e : Event} {s t : State} {er : Err} {es : List Event} (h : Reports (emit e s) t er es) :
    Reports s t er ([e] ++ es) :=
  ⟨h.err, by rw [h.trace, emit_trace, List.append_assoc]⟩

theorem Sparse.write_of_read {w : Nat} {m : Sparse w} {a : Nat} {v : BitVec w} (h : Sparse.wf m = true)
    (hv : Sparse.read m a = v) : Sparse.write m a v = m :=
  hv ▸ Sparse.write_read m a h

theorem gateAndWarnEvents_emit (p : Params) (ch : Nat) (e : Event) (s : State) :
    gateAndWarnEvents p ch (emit e s) = gateAndWarnEvents p ch s := rfl

theorem gateAndWarnEvents_of_on {p : Params} {ch : Nat} {s : State} (hon : Sparse.read s.clken ch = 1) :
    gateAndWarnEvents p ch s = (channelDivisor p ch).2.logEvents := by
  have hgate : ¬ Sparse.read s.clken ch = 0 := by rw [hon]; decide
  rw [gateAndWarnEvents, if_neg hgate, List.nil_append]

/-! #### The two errors of a configuration -/

/-- A code of 4 or more ends a configuration before its transport init, whatever was to follow (R124, R127). -/
theorem runScript_configureScript_illegal (p : Params) (ch : Nat) {pp : Word} (rest : List Action) {s : State}
    (hin : s.inputs = []) (hgates : Sparse.wf s.clken = true) (hpp : 4 ≤ pp.toNat) :
    ∃ t, runScript p (configureScript p ch pp ++ rest) s = (t, none) ∧ t.tcfg = s.tcfg ∧
      Reports s t .invalidPolarity (gateAndWarnEvents p ch s ++ [.log .eInvalidPolarity]) ∧
      ConfigurationFrame ch s t := by
  have hcheck : doAction p (.checkPolarity pp) (gatedAndWarned p ch s) =
      .raises .invalidPolarity (gatedAndWarned p ch s) := if_pos hpp
  exact ⟨_, (runScript_configureScript p ch pp rest s hin hgates).trans (runScript_cons_raises hin hcheck), rfl,
    ⟨rfl, List.append_assoc ..⟩, .of_gatedAndWarned hgates rfl⟩

/-- The state in which a configuration raises the failure of its transport init (R125). -/
def configureSpoilt (p : Params) (ch : Nat) (pp : Word) (s : State) : State :=
  spoilCfg p ch (emit (.tinit ch (stagedCfg p ch pp) .fail) (useAnswer (gatedAndWarned p ch s)))

theorem configureSpoilt_trace (p : Params) (ch : Nat) (pp : Word) (s : State) :
    (configureSpoilt p ch pp s).trace =
      s.trace ++ (gateAndWarnEvents p ch s ++ [.tinit ch (stagedCfg p ch pp) .fail]) := by
  simp [configureSpoilt, spoilCfg, gatedAndWarned]

/-- A failed transport init writes its channel's word only, and leaves it invalid (R125, R126). -/
theorem configureSpoilt_tcfg (p : Params) (ch : Nat) (pp : Word) {s : State} (hcfgs : Sparse.wf s.tcfg = true) :
    channelValid (configureSpoilt p ch pp s) ch = false ∧
      ∀ c, c ≠ ch → Sparse.read (configureSpoilt p ch pp s).tcfg c = Sparse.read s.tcfg c := by
  obtain ⟨word, hword⟩ : ∃ word, (configureSpoilt p ch pp s).tcfg =
      Sparse.write s.tcfg ch (word &&& unspecifiedFields) :=
    ⟨_, congrArg (Sparse.write · ch _) (useAnswer_tcfg _)⟩
  rw [channelValid, hword, Sparse.read_write_same _ _ _ hcfgs, (cfgFields_unspecified word).1]
  exact ⟨rfl, fun c hc => Sparse.read_write_other _ _ _ _ hc⟩

/-- A transport init that answers fail ends a configuration, whatever was to follow (R125, R127). -/
theorem runScript_configureScript_fail (p : Params) (ch : Nat) {pp : Word} (rest : List Action) {s : State}
    (hin : s.inputs = []) (hgates : Sparse.wf s.clken = true) (hcfgs : Sparse.wf s.tcfg = true)
    (hpp : pp.toNat < 4) (hans : nextAnswer p s = .fail) :
    ∃ t, runScript p (configureScript p ch pp ++ rest) s = (t, none) ∧ channelValid t ch = false ∧
      (∀ c, c ≠ ch → Sparse.read t.tcfg c = Sparse.read s.tcfg c) ∧
      Reports s t .transportInitFailed
        (gateAndWarnEvents p ch s ++ [.tinit ch (stagedCfg p ch pp) .fail, .log .eTransportInitFailed]) ∧
      ConfigurationFrame ch s t := by
  have hinputs : (gatedAndWarned p ch s).inputs = [] := hin
  have hlegal : doAction p (.checkPolarity pp) (gatedAndWarned p ch s) = .goesOn (gatedAndWarned p ch s) :=
    if_neg (by omega)
  have hans' : nextAnswer p (gatedAndWarned p ch s) = .fail := (nextAnswer_congr p rfl rfl).trans hans
  have hinit : doAction p (.tinit ch (stagedCfg p ch pp)) (gatedAndWarned p ch s) =
      .raises .transportInitFailed (configureSpoilt p ch pp s) := by
    simp only [doAction, transportInit, hans', configureSpoilt]
  obtain ⟨hinvalid, hothers⟩ := configureSpoilt_tcfg p ch pp hcfgs
  have hrun : runScript p (configureScript p ch pp ++ rest) s =
      (raise p .transportInitFailed (configureSpoilt p ch pp s), none) := by
    rw [runScript_configureScript p ch pp rest s hin hgates, runScript_cons_goesOn hinputs hlegal,
      runScript_cons_raises hinputs hinit]
  refine ⟨_, hrun, hinvalid, hothers, ⟨rfl, ?_⟩, .of_gatedAndWarned hgates ?_⟩
  · simp [raise, configureSpoilt_trace, Err.logEvents, Err.logKind]
  · simp [configureSpoilt, recordError, emitAll, spoilCfg, emit, useAnswer_eq]

/-! #### `CONFIGURE` -/

/-- On an existing channel the check of R121 passes and the script runs. -/
theorem exec_configure {ch pp : Word} {s t : State} (hch : ch.toNat < deployed.nCh)
    (hrun : runScript deployed (configureScript deployed ch.toNat pp ++ []) s = (t, none)) :
    exec (.configure ch pp) s = .next t := by
  have hplan : planOf deployed (.configure ch pp) s = .ok (configureScript deployed ch.toNat pp) :=
    if_neg (not_le.2 hch)
  rw [List.append_nil] at hrun
  exact exec_of_perform (by rw [hplan]; exact hrun)

/-- The state a `CONFIGURE` leaves whose transport init answers ok. -/
theorem exec_configure_ok {ch pp : Word} {s : State} (hin : s.inputs = []) (hgates : Sparse.wf s.clken = true)
    (hch : ch.toNat < deployed.nCh) (hpp : pp.toNat < 4) (hans : nextAnswer deployed s = .ok) :
    exec (.configure ch pp) s = .next (endOperation deployed (configureDone deployed ch.toNat pp s)) :=
  exec_configure hch ((runScript_configureScript_ok deployed ch.toNat pp [] s hin hgates hpp hans).trans
    (runScript_nil ..))

@[simp] theorem configureDone_clken (p : Params) (ch : Nat) (pp : Word) (s : State) :
    (configureDone p ch pp s).clken = Sparse.write s.clken ch 1 := by
  simp [configureDone, gatedAndWarned]

@[simp] theorem configureDone_warnLow (p : Params) (ch : Nat) (pp : Word) (s : State) :
    (configureDone p ch pp s).warnLow = (s.warnLow || decide ((channelDivisor p ch).2 = .low)) := by
  simp [configureDone, gatedAndWarned]

@[simp] theorem configureDone_warnHigh (p : Params) (ch : Nat) (pp : Word) (s : State) :
    (configureDone p ch pp s).warnHigh = (s.warnHigh || decide ((channelDivisor p ch).2 = .high)) := by
  simp [configureDone, gatedAndWarned]

theorem configureDone_frame {p : Params} (ch : Nat) (pp : Word) {s : State} (hgates : Sparse.wf s.clken = true) :
    ConfigurationFrame ch s (endOperation p (configureDone p ch pp s)) :=
  .of_gatedAndWarned hgates (by simp [configureDone, useAnswer_eq, gatedAndWarned])

theorem configureDone_reports (p : Params) (ch : Nat) (pp : Word) (s : State) :
    Reports s (endOperation p (configureDone p ch pp s)) s.err
      (gateAndWarnEvents p ch s ++ [.tinit ch (stagedCfg p ch pp) .ok]) :=
  ⟨by simp [configureDone, gatedAndWarned], rfl⟩

/-- Settles O28: the check of R121 fails before anything happens. -/
theorem configureRefusesUnknownChannel : Obligations.ConfigureRefusesUnknownChannel :=
  fun _ _ _ hch => exec_refused (if_pos hch)

/-- Settles O29: the script stops at its check of the code. -/
theorem configureInvalidPolarity : Obligations.ConfigureInvalidPolarity := by
  intro ch pp s hin hgates hch hpp
  obtain ⟨t, hrun, htcfg, hreports, hframe⟩ :=
    runScript_configureScript_illegal deployed ch.toNat [] hin hgates hpp
  exact ⟨t, exec_configure hch hrun, hframe.gate, hframe.otherGates, htcfg, hreports, hframe.ended, hframe.host,
    hframe.pins, hframe.txf, hframe.res⟩

/-- Settles O30: the script stops at its transport init. -/
theorem configureTransportInitFails : Obligations.ConfigureTransportInitFails := by
  intro ch pp s hin hgates hcfgs hch hpp hans
  obtain ⟨t, hrun, hinvalid, hothers, hreports, hframe⟩ :=
    runScript_configureScript_fail deployed ch.toNat [] hin hgates hcfgs hpp hans
  exact ⟨t, exec_configure hch hrun, hframe.gate, hinvalid, fun c hc => ⟨hothers c hc, hframe.otherGates c hc⟩,
    hreports, hframe.ended, hframe.host, hframe.pins, hframe.txf, hframe.res⟩

/-- Settles O27: the word committed is the staged one with `VALID` set. -/
theorem configureCommits : Obligations.ConfigureCommits := by
  intro ch pp s hin hgates hcfgs hch hpp hans
  obtain ⟨hvalid, hmstr, hhwcs, hlsbf, hw16, hzero, hbr, hcpha, hcpol⟩ := stagedCfg_fields deployed ch.toNat pp
  have hmap : ppMap pp = some (cfgCpha (stagedCfg deployed ch.toNat pp), cfgCpol (stagedCfg deployed ch.toNat pp)) := by
    rw [hcpha, hcpol]
    exact ppMap_of_legal hpp
  have hframe := configureDone_frame (p := deployed) ch.toNat pp hgates
  exact ⟨_, stagedCfg deployed ch.toNat pp, exec_configure_ok hin hgates hch hpp hans, hvalid, hmstr, hhwcs, hlsbf,
    hw16, hzero, hmap, hbr, Sparse.read_write_same _ _ _ hcfgs, hframe.gate,
    fun c hc => ⟨Sparse.read_write_other _ _ _ _ hc, hframe.otherGates c hc⟩,
    configureDone_warnLow _ _ pp _, configureDone_warnHigh _ _ pp _, configureDone_reports deployed ch.toNat pp s,
    hframe.ended, hframe.host, hframe.pins, hframe.txf, hframe.res⟩

/-- Settles O31: each register is written with what it holds. -/
theorem configuringAgainChangesNothing : Obligations.ConfiguringAgainChangesNothing := by
  intro ch pp s hin hgates hcfgs hch hpp hans hon hcfg
  have hreports := configureDone_reports deployed ch.toNat pp s
  rw [gateAndWarnEvents_of_on hon] at hreports
  exact ⟨_, exec_configure_ok hin hgates hch hpp hans,
    (configureDone_clken _ _ pp _).trans (Sparse.write_of_read hgates hon), Sparse.write_of_read hcfgs hcfg, hreports⟩

/-! #### `INIT` up to its configuration -/

/-- An `INIT` sets the pin roles and comes to its configuration (R171, R172). -/
theorem runScript_initScript (p : Params) (pp : Word) {s : State} (hin : s.inputs = []) :
    ∃ rest, runScript p (initScript p pp) s =
      runScript p (configureScript p p.dispCh pp ++ rest) (emit .gpioCfg s) := by
  obtain ⟨rest, hscript⟩ : ∃ rest, initScript p pp = .gpioCfg :: (configureScript p p.dispCh pp ++ rest) :=
    ⟨_, by rw [initScript, List.append_assoc, List.append_assoc, List.append_assoc]; rfl⟩
  exact ⟨rest, hscript ▸ runScript_cons_goesOn hin rfl⟩

/-- Settles O41: a configuration's error ends it, whatever was to follow. -/
theorem initStopsAtAConfigurationError : Obligations.InitStopsAtAConfigurationError := by
  intro pp s hin hgates hcfgs
  obtain ⟨rest, hinit⟩ := runScript_initScript deployed pp hin
  refine ⟨fun hpp => ?_, fun hpp hans => ?_⟩
  · obtain ⟨t, hrun, htcfg, hreports, hframe⟩ :=
      runScript_configureScript_illegal (s := emit .gpioCfg s) deployed deployed.dispCh rest hin hgates hpp
    have hframe' := hframe.of_emit
    have hreports' := hreports.of_emit
    rw [gateAndWarnEvents_emit] at hreports'
    refine ⟨t, exec_of_perform (hinit.trans hrun), ?_, hframe'.gate, hframe'.otherGates, htcfg, hframe'.pins,
      hframe'.txf, hframe'.res, hframe'.ended, hframe'.host⟩
    simpa [gateAndWarnEvents] using hreports'
  · have hans' : nextAnswer deployed (emit .gpioCfg s) = .fail := (nextAnswer_congr deployed rfl rfl).trans hans
    obtain ⟨t, hrun, hinvalid, hothers, hreports, hframe⟩ :=
      runScript_configureScript_fail (s := emit .gpioCfg s) deployed deployed.dispCh rest hin hgates hcfgs hpp hans'
    have hframe' := hframe.of_emit
    have hreports' := hreports.of_emit
    rw [gateAndWarnEvents_emit] at hreports'
    refine ⟨t, exec_of_perform (hinit.trans hrun), ?_, hframe'.gate, hinvalid,
      fun c hc => ⟨hothers c hc, hframe'.otherGates c hc⟩, hframe'.pins, hframe'.txf, hframe'.res, hframe'.ended,
      hframe'.host⟩
    simpa [gateAndWarnEvents] using hreports'

end Sys2Proof.Machine

/-! ### The Write Sequencer -/

namespace Sys2Proof.Machine

/-! #### Writes to a configured display -/

/-- Settles O34. -/
theorem wrctlWritesOneControlByte : Obligations.WrctlWritesOneControlByte :=
  fun pwm peak sleep _ hin hv => exec_wrctl_wroteWindow pwm peak sleep hin hv

/-- Settles O36. -/
theorem clearWritesTwentyZeroBytes : Obligations.ClearWritesTwentyZeroBytes :=
  fun _ hin hv => exec_clear_wroteWindow hin hv

/-! #### Writes to a display that is not configured -/

section

variable {p : Params} {s : State} (hv : channelValid s p.dispCh = false)

include hv

theorem planWrctl_of_unconfigured (pwm peak : Byte) (sleep : BitVec 1) :
    planWrctl p pwm peak sleep s = .error .notConfigured := by
  simp [planWrctl, hv]

theorem planGlyphs_of_unconfigured (f : Four) : planGlyphs p f s = .error .notConfigured := by
  simp [planGlyphs, hv]

theorem planClear_of_unconfigured : planClear p s = .error .notConfigured := by
  simp [planClear, hv]

/-- The check comes before those of the string and of its glyphs (R208). -/
theorem planScroll_of_unconfigured (base : BitVec 8) : planScroll p base s = .error .notConfigured := by
  simp [planScroll, hv]

end

/-- Settles O37: of each of these operations the first check is that the display is configured (R208). -/
theorem unconfiguredDisplayIsNotWritten : Obligations.UnconfiguredDisplayIsNotWritten := by
  intro i s hi hv
  rcases hi with ⟨pwm, peak, sleep, rfl⟩ | ⟨c0, c1, c2, c3, rfl⟩ | rfl | ⟨base, rfl⟩ | ⟨n, rfl⟩ | ⟨x, rfl⟩ |
    ⟨c, rfl⟩
  · exact exec_refused (planWrctl_of_unconfigured hv pwm peak sleep)
  · exact exec_refused (planGlyphs_of_unconfigured hv ⟨c0, c1, c2, c3⟩)
  · exact exec_refused (planClear_of_unconfigured hv)
  · exact exec_refused (planScroll_of_unconfigured hv base)
  · exact exec_refused (planGlyphs_of_unconfigured hv (fmtInt n.toInt))
  · exact exec_refused (planGlyphs_of_unconfigured hv (deployed.fmtFloat x))
  · exact exec_refused (planGlyphs_of_unconfigured hv (deployed.fmtErr c))

/-! #### What transmits leave in the trace -/

/-- Transmits one after the other: the statuses are divided as the bytes are. -/
theorem txEvents_append (p : Params) (bs cs : List Byte) (sts : List Status) :
    txEvents p (bs ++ cs) sts = txEvents p bs (sts.take bs.length) ++ txEvents p cs (sts.drop bs.length) := by
  induction bs generalizing sts with
  | nil => simp [txEvents]
  | cons b bs ih =>
    cases sts with
    | nil => cases cs <;> simp [txEvents]
    | cons st sts => simp [txEvents, ih]

/-- The bytes sent are those given, whatever the statuses (R153). -/
theorem txBytes_txEvents (p : Params) {bs : List Byte} {sts : List Status} (hlen : sts.length = bs.length) :
    txBytes (txEvents p bs sts) = bs := by
  induction bs generalizing sts with
  | nil => simp [txEvents, txBytes]
  | cons b bs ih =>
    cases sts with
    | nil => simp at hlen
    | cons st sts =>
      have hrest := ih (sts := sts) (by simpa using hlen)
      cases st <;> simpa [txEvents, statusEvents, txBytes] using hrest

theorem txStatuses_txEvents (p : Params) {bs : List Byte} {sts : List Status} (hlen : sts.length = bs.length) :
    txStatuses (txEvents p bs sts) = sts := by
  induction bs generalizing sts with
  | nil => simp [txEvents, txStatuses, List.length_eq_zero_iff.1 hlen]
  | cons b bs ih =>
    cases sts with
    | nil => simp at hlen
    | cons st sts =>
      have hrest := ih (sts := sts) (by simpa using hlen)
      cases st <;> simpa [txEvents, statusEvents, txStatuses] using hrest

/-- Each failure is logged once (R148). -/
theorem count_txFailed_txEvents (p : Params) {bs : List Byte} {sts : List Status} (hlen : sts.length = bs.length) :
    (txEvents p bs sts).count (.log .eTxFailed) = sts.count .fail := by
  induction bs generalizing sts with
  | nil => simp [txEvents, List.length_eq_zero_iff.1 hlen]
  | cons b bs ih =>
    cases sts with
    | nil => simp at hlen
    | cons st sts =>
      have hrest := ih (sts := sts) (by simpa using hlen)
      cases st <;> simp [txEvents, statusEvents, hrest]

/-- A log entry stands right after the transmit that failed (R148). -/
theorem txFailed_follows_tx {p : Params} {bs : List Byte} {sts : List Status} {pre post : List Event}
    (h : txEvents p bs sts = pre ++ Event.log .eTxFailed :: post) :
    ∃ pre' b, pre = pre' ++ [.tx p.dispCh b .fail] := by
  induction bs generalizing sts pre with
  | nil => simp [txEvents] at h
  | cons b bs ih =>
    cases sts with
    | nil => simp [txEvents] at h
    | cons st sts =>
      -- the first event is a transmit, so it belongs to `pre`
      cases pre with
      | nil => simp [txEvents] at h
      | cons e pre =>
        obtain ⟨rfl, hrest⟩ := List.cons.inj h
        cases st with
        | ok =>
          obtain ⟨pre', b', rfl⟩ := ih hrest
          exact ⟨_ :: pre', b', rfl⟩
        | fail =>
          -- the entry is this failure's own, or one further on
          cases pre with
          | nil => exact ⟨[], b, rfl⟩
          | cons l pre =>
            obtain ⟨-, hrest⟩ := List.cons.inj hrest
            obtain ⟨pre', b', rfl⟩ := ih hrest
            exact ⟨_ :: _ :: pre', b', rfl⟩

/-- Settles O39: the transmits of a window are those of its payload and the dummy byte, in one list. -/
theorem failedTransmitsDoNotStopAWindow : Obligations.FailedTransmitsDoNotStopAWindow := by
  intro sp data s hin
  obtain ⟨t, hrun, hwrote⟩ := perform_window deployed sp data s hin
  obtain ⟨htrace, htxf, herr, -, hce, hph, hended, -⟩ := hwrote
  rw [List.length_map] at htrace htxf
  have hlen : (answersAhead deployed (data.length + 1) s).length =
      (data.map (datumByte deployed · s) ++ [0]).length := by
    simp
  generalize data.map (datumByte deployed · s) = payload at *
  generalize answersAhead deployed (data.length + 1) s = sts at *
  have hall := txEvents_append deployed payload [0] sts
  refine ⟨t, txEvents deployed payload (sts.take payload.length), txEvents deployed [0] (sts.drop payload.length),
    hrun, htrace, txBytes_txEvents deployed (by simp [hlen]), txBytes_txEvents deployed (by simp [hlen]), ?_⟩
  rw [← hall]
  exact ⟨txStatuses_txEvents deployed hlen, fun _ => mem_txEvents, count_txFailed_txEvents deployed hlen,
    fun _ _ => txFailed_follows_tx, hph, hce, herr, htxf, hended⟩

end Sys2Proof.Machine

/-! ### Composite operations -/

namespace Sys2Proof.Machine

/-! #### Parts of a run that write the display -/

/-- A part of a run that uses the next `n` answers, emits `es`, and writes nothing but what a window or a frame's
load writes. -/
structure WritesDisplay (p : Params) (n : Nat) (es : List Event) (s t : State) : Prop where
  trace : t.trace = s.trace ++ es
  txf : t.txf = (s.txf || anyFail (answersAhead p n s))
  err : t.err = s.err
  answers : t.answers = (afterAnswers n s).answers
  fresh : t.fresh = (afterAnswers n s).fresh
  txt : t.txt = s.txt
  stale : t.stale = s.stale
  frame : DisplayWriteFrame s t

/-- The pins and the phase as a window of the space `sp` leaves them (R140). -/
structure WindowClosed (p : Params) (sp : Space) (t : State) : Prop where
  rs : t.rs = spaceLevel p sp
  ce : t.ce = 1
  ph : t.ph = .idle

theorem KeepsHost.trans {s t u : State} (h : KeepsHost s t) (g : KeepsHost t u) : KeepsHost s u :=
  ⟨g.op.trans h.op, g.a.trans h.a, g.b.trans h.b, fun x => (g.text x).trans (h.text x), g.port.trans h.port,
    g.inputs.trans h.inputs, g.dev0.trans h.dev0⟩

theorem DisplayWriteFrame.trans {s t u : State} (h : DisplayWriteFrame s t) (g : DisplayWriteFrame t u) :
    DisplayWriteFrame s u where
  host := h.host.trans g.host
  transport := ⟨fun c => (g.transport.gates c).trans (h.transport.gates c),
    fun c => (g.transport.cfgs c).trans (h.transport.cfgs c)⟩
  warnings := ⟨g.warnings.low.trans h.warnings.low, g.warnings.high.trans h.warnings.high⟩
  res := g.res.trans h.res
  rst := g.rst.trans h.rst

/-- The end of an operation is no part of what a display write leaves as it was. -/
theorem DisplayWriteFrame.endOperation {s t : State} (h : DisplayWriteFrame s t) (p : Params) :
    DisplayWriteFrame s (endOperation p t) := by
  obtain ⟨⟨hop, ha, hb, htext, hport, hinputs, hdev0⟩, ⟨hgates, hcfgs⟩, ⟨hlow, hhigh⟩, hres, hrst⟩ := h
  exact ⟨⟨hop, ha, hb, htext, hport, hinputs, hdev0⟩, ⟨hgates, hcfgs⟩, ⟨hlow, hhigh⟩, hres, hrst⟩

theorem anyFail_append (sts sts' : List Status) : anyFail (sts ++ sts') = (anyFail sts || anyFail sts') :=
  List.any_append

/-- The answers after such a part are those that follow the ones it used. -/
theorem WritesDisplay.answersAhead_eq {p : Params} {m : Nat} {es : List Event} {s t : State}
    (h : WritesDisplay p m es s t) (n : Nat) :
    answersAhead p n t = (answersAhead p (m + n) s).drop m := by
  rw [answersAhead_add, List.drop_left' (answersAhead_length p m s)]
  exact answersAhead_congr p n h.answers h.fresh

theorem WritesDisplay.trans {p : Params} {m n : Nat} {es fs : List Event} {s t u : State}
    (h : WritesDisplay p m es s t) (g : WritesDisplay p n fs t u) : WritesDisplay p (m + n) (es ++ fs) s u := by
  obtain ⟨hanswers, hfresh⟩ := afterAnswers_answers_congr n h.answers h.fresh
  exact
    { trace := by rw [g.trace, h.trace, List.append_assoc]
      txf := by
        rw [g.txf, h.txf, answersAhead_add, anyFail_append, Bool.or_assoc,
          answersAhead_congr p n h.answers h.fresh]
      err := g.err.trans h.err
      answers := by rw [afterAnswers_add, g.answers, hanswers]
      fresh := by rw [afterAnswers_add, g.fresh, hfresh]
      txt := g.txt.trans h.txt
      stale := g.stale.trans h.stale
      frame := h.frame.trans g.frame }

/-- A window is such a part (R140, R154). -/
theorem windowDone_writesDisplay (p : Params) (sp : Space) (payload : List Byte) (s : State) :
    WritesDisplay p (payload.length + 1) (windowEvents p sp payload (answersAhead p (payload.length + 1) s)) s
      (windowDone p sp payload s) := by
  obtain ⟨htrace, htxf, herr, -, -, -, -, hframe⟩ := wroteWindow_of_windowDone p sp payload s
  obtain ⟨⟨hop, ha, hb, htext, hport, hinputs, hdev0⟩, ⟨hgates, hcfgs⟩, ⟨hlow, hhigh⟩, hres, hrst⟩ := hframe
  exact ⟨htrace, htxf, herr, rfl, rfl, by simp [windowDone], by simp [windowDone],
    ⟨⟨hop, ha, hb, htext, hport, hinputs, hdev0⟩, ⟨hgates, hcfgs⟩, ⟨hlow, hhigh⟩, hres, hrst⟩⟩

theorem windowDone_closed (p : Params) (sp : Space) (payload : List Byte) (s : State) :
    WindowClosed p sp (windowDone p sp payload s) := ⟨rfl, rfl, rfl⟩

/-- A pause is such a part (R179). -/
theorem emit_writesDisplay (p : Params) (e : Event) (s : State) : WritesDisplay p 0 [e] s (emit e s) :=
  ⟨rfl, by simp [answersAhead, anyFail], rfl, rfl, rfl, rfl, rfl,
    ⟨⟨rfl, rfl, rfl, fun _ => rfl, rfl, rfl, rfl⟩, ⟨fun _ => rfl, fun _ => rfl⟩, ⟨rfl, rfl⟩, rfl, rfl⟩⟩

/-- A write of the transient registers is such a part (R14). -/
theorem writesDisplay_of_transient {p : Params} {s t : State}
    (h : t = { s with ch4 := t.ch4, win := t.win, len := t.len }) : WritesDisplay p 0 [] s t := by
  rw [h]
  exact ⟨by simp, by simp [answersAhead, anyFail], rfl, rfl, rfl, rfl, rfl,
    ⟨⟨rfl, rfl, rfl, fun _ => rfl, rfl, rfl, rfl⟩, ⟨fun _ => rfl, fun _ => rfl⟩, ⟨rfl, rfl⟩, rfl, rfl⟩⟩

/-! #### `INIT` -/

/-- What an `INIT` has written before its first window: `TCFG`, the gate, the warning flags, the reset pin, the
trace and the draws (R171). -/
theorem displayReset_eq (p : Params) (pp : Word) (s : State) :
    displayReset p pp s =
      { s with
        clken := Sparse.write s.clken p.dispCh 1
        tcfg := Sparse.write s.tcfg p.dispCh (stagedCfg p p.dispCh pp ||| validBit)
        warnLow := s.warnLow || decide ((channelDivisor p p.dispCh).2 = .low)
        warnHigh := s.warnHigh || decide ((channelDivisor p p.dispCh).2 = .high)
        rst := 1
        trace := (displayReset p pp s).trace
        answers := (displayReset p pp s).answers
        fresh := (displayReset p pp s).fresh } := by
  simp [displayReset, configureDone, gatedAndWarned, useAnswer_eq, emit]

/-- Up to its first window an `INIT` uses one answer, that of the transport init (R171). -/
theorem answersAhead_displayReset (p : Params) (pp : Word) (n : Nat) (s : State) :
    answersAhead p n (displayReset p pp s) = (answersAhead p (n + 1) s).drop 1 :=
  answersAhead_congr (s := useAnswer s) p n
    (by simp [displayReset, configureDone, gatedAndWarned, useAnswer_eq])
    (by simp [displayReset, configureDone, gatedAndWarned, useAnswer_eq])

theorem displayReset_keepsHost (p : Params) (pp : Word) (s : State) : KeepsHost s (displayReset p pp s) := by
  rw [displayReset_eq]
  exact ⟨rfl, rfl, rfl, fun _ => rfl, rfl, rfl, rfl⟩

/-- The two windows of an `INIT`, their statuses being those of the 23 answers after the transport init's. -/
theorem initWindows_writesDisplay (p : Params) (pp : Word) (s : State) :
    WritesDisplay p 23
      (windowEvents p .dot clearFrame (((answersAhead p 24 s).drop 1).take 21) ++
        windowEvents p .ctrl [initControlByte p] ((answersAhead p 24 s).drop 22))
      (displayReset p pp s)
      (windowDone p .ctrl [initControlByte p] (windowDone p .dot clearFrame (displayReset p pp s))) := by
  have hclear := windowDone_writesDisplay p .dot clearFrame (displayReset p pp s)
  have hctrl :=
    windowDone_writesDisplay p .ctrl [initControlByte p] (windowDone p .dot clearFrame (displayReset p pp s))
  have hall : answersAhead p 23 (displayReset p pp s) = (answersAhead p 24 s).drop 1 :=
    answersAhead_displayReset p pp 23 s
  have hdotSts : answersAhead p 21 (displayReset p pp s) = ((answersAhead p 24 s).drop 1).take 21 := by
    rw [← hall, answersAhead_add p 21 2, List.take_left' (answersAhead_length ..)]
  have hctrlSts : answersAhead p 2 (windowDone p .dot clearFrame (displayReset p pp s)) =
      (answersAhead p 24 s).drop 22 := by
    have hdrop : ((answersAhead p 24 s).drop 1).drop 21 = (answersAhead p 24 s).drop 22 := List.drop_drop
    rw [← hdrop, ← hall]
    exact hclear.answersAhead_eq 2
  rw [← hdotSts, ← hctrlSts]
  exact hclear.trans hctrl

/-- `INIT` sends the control byte of its fixed fields and `WAKE_S` (R174). -/
theorem initControlByte_eq (p : Params) :
    initControlByte p = controlByte (p.pwmFixed.setWidth 8) (p.peakFixed.setWidth 8) p.wakeS := by
  have hpwm : p.pwmFixed.setWidth 8 = 0#4 ++ p.pwmFixed := BitVec.setWidth_eq_append (by decide)
  have hpeak : p.peakFixed.setWidth 8 = 0#6 ++ p.peakFixed := BitVec.setWidth_eq_append (by decide)
  rw [hpwm, hpeak, initControlByte]

/-- Settles O40: the configuration and the reset of the display, then the two windows. -/
theorem initRunsItsFiveSteps : Obligations.InitRunsItsFiveSteps := by
  intro pp s hin hgates hcfgs hpp hans
  have hrun := runScript_initScript_ok deployed pp s hin hgates hpp hans
  have hwindows := initWindows_writesDisplay deployed pp s
  rw [initControlByte_eq] at hrun hwindows
  obtain ⟨htrace, htxf, herr, -, -, -, -, hframe⟩ := hwindows
  obtain ⟨hhost, ⟨hgatesKept, hcfgsKept⟩, ⟨hlow, hhigh⟩, hres, hrst⟩ := hframe.endOperation deployed
  have hreset := displayReset_eq deployed pp s
  rw [answersAhead_displayReset] at htxf
  refine ⟨_, exec_of_perform hrun, ⟨herr.trans (by rw [hreset]), htrace.trans ?_⟩,
    (hcfgsKept _).trans (by rw [hreset]; exact Sparse.read_write_same _ _ _ hcfgs),
    (hgatesKept _).trans (by rw [hreset]; exact Sparse.read_write_same _ _ _ hgates),
    fun c hc => ⟨(hcfgsKept c).trans (by rw [hreset]; exact Sparse.read_write_other _ _ _ _ hc),
      (hgatesKept c).trans (by rw [hreset]; exact Sparse.read_write_other _ _ _ _ hc)⟩,
    hrst, rfl, rfl, rfl, hlow.trans (by rw [hreset]), hhigh.trans (by rw [hreset]), htxf.trans (by rw [hreset]),
    ⟨rfl, rfl⟩, (displayReset_keepsHost deployed pp s).trans hhost, hres.trans (by rw [hreset])⟩
  simp only [displayReset, gateAndWarnEvents, List.append_assoc]
  rfl

/-! #### `SCROLL`: its checks -/

theorem stringHasGlyphs_iff {p : Params} {m : Memory} {b n : Nat} :
    stringHasGlyphs p m b n = true ↔ FrameHasGlyphs p m b n := by
  simp [stringHasGlyphs, FrameHasGlyphs]

/-- A string with no terminator fails the second check (R176). -/
theorem planScroll_of_unterminated {p : Params} {base : BitVec 8} {s : State} (hv : channelValid s p.dispCh = true)
    (hlen : strLen s.txt base.toNat = none) : planScroll p base s = .error .illegalOperand := by
  simp [planScroll, hv, hlen]

/-- A character with no glyph fails the third check (R176). -/
theorem planScroll_of_badGlyph {p : Params} {base : BitVec 8} {n : Nat} {s : State}
    (hv : channelValid s p.dispCh = true) (hlen : strLen s.txt base.toNat = some n)
    (hbad : ∃ k, k < n ∧ p.glyphCount ≤ (Memory.read s.txt (base.toNat + k)).toNat) :
    planScroll p base s = .error .glyphIndex := by
  have hsome : stringHasGlyphs p s.txt base.toNat n = false := by
    rw [Bool.eq_false_iff, Ne, stringHasGlyphs_iff]
    intro hall
    obtain ⟨k, hk, hbad⟩ := hbad
    exact absurd (of_decide_eq_true (hall k hk)) (not_lt.2 hbad)
  simp [planScroll, hv, hlen, hsome]

/-- The checks passed (R175). -/
theorem planScroll_of_string {p : Params} {base : BitVec 8} {n : Nat} {s : State}
    (hv : channelValid s p.dispCh = true) (hlen : strLen s.txt base.toNat = some n)
    (hg : FrameHasGlyphs p s.txt base.toNat n) : planScroll p base s = .ok (scrollScript p base.toNat n) := by
  simp [planScroll, hv, hlen, stringHasGlyphs_iff.2 hg]

/-- Settles O44. -/
theorem scrollRefusals : Obligations.ScrollRefusals :=
  fun _ _ hv => ⟨fun hlen => exec_refused (planScroll_of_unterminated hv hlen),
    fun _ hlen hbad => exec_refused (planScroll_of_badGlyph hv hlen hbad)⟩

/-! #### `SCROLL`: its frames -/

/-- The state after one frame of a scroll. -/
def frameShown (p : Params) (f : Four) (s : State) : State := windowDone p .dot (frame p f) { s with ch4 := f }

/-- A frame of a scroll uses 21 answers (R154). -/
theorem frameShown_writesDisplay (p : Params) (f : Four) (s : State) :
    WritesDisplay p 21 (windowEvents p .dot (frame p f) (answersAhead p 21 s)) s (frameShown p f s) := by
  have hload : WritesDisplay p 0 [] s { s with ch4 := f } := writesDisplay_of_transient rfl
  have hwindow := windowDone_writesDisplay p .dot (frame p f) { s with ch4 := f }
  rw [frame_length, hload.answersAhead_eq 21] at hwindow
  exact hload.trans hwindow

/-- The characters from place `w` of a string have glyphs as those of the string have. -/
theorem FrameHasGlyphs.from_place {p : Params} {m : Memory} {b len w n : Nat} (h : FrameHasGlyphs p m b len)
    (hw : w + n ≤ len) : FrameHasGlyphs p m (b + w) n := by
  intro i hi
  rw [Nat.add_assoc]
  exact h (w + i) (by omega)

section

variable {p : Params} (hspace : hasGlyph p space = true) {s : State} (hin : s.inputs = []) (hstale : s.stale = [])

include hspace hin hstale

/-- A frame whose characters have glyphs is read and shown, its place from the string's end on filled with spaces
(R177, R178). -/
theorem runScript_scrollFrame {a n : Nat} (rest : List Action) (hg : FrameHasGlyphs p s.txt a n) :
    runScript p (scrollFrame p a n ++ rest) s = runScript p rest (frameShown p (shortFrame s.txt a n) s) := by
  have hload : doAction p (.loadText a n) s = .goesOn { s with ch4 := shortFrame s.txt a n } := by
    simp only [doAction, loadFrame, readFrame_short p a n s hstale, badCode_shortFrame hspace hg]
  rw [scrollFrame, List.cons_append, runScript_cons_goesOn hin hload, frameWindow,
    runScript_window p .dot frameData rest { s with ch4 := shortFrame s.txt a n } hin, map_datumByte_frameData,
    frameShown]

/-- Frame `w` of a long string comes to its pause. -/
theorem runScript_scrollStep {b len w : Nat} (rest : List Action) (hg : FrameHasGlyphs p s.txt (b + w) 4) :
    ∃ t, runScript p (scrollStep p b len w ++ rest) s =
        runScript p ((if w < len - 4 then [.delayMs p.tScrollMs] else []) ++ rest) t ∧
      WritesDisplay p 21 (windowEvents p .dot (frame p (textWindow s.txt (b + w))) (answersAhead p 21 s)) s t ∧
      WindowClosed p .dot t := by
  have hmark : WritesDisplay p 0 [] s { s with win := BitVec.ofNat 8 w } := writesDisplay_of_transient rfl
  have hshown := frameShown_writesDisplay p (textWindow s.txt (b + w)) { s with win := BitVec.ofNat 8 w }
  rw [hmark.answersAhead_eq 21] at hshown
  refine ⟨_, ?_, hmark.trans hshown, windowDone_closed ..⟩
  rw [scrollStep, List.cons_append, List.cons_append, List.append_assoc, runScript_cons_goesOn hin rfl,
    runScript_scrollFrame (s := { s with win := BitVec.ofNat 8 w }) hspace hin hstale _ hg]
  rfl

end

theorem framesEvents_cons (p : Params) (f : Four) {fs : List Four} (hfs : fs ≠ []) (sts : List Status) :
    framesEvents p (f :: fs) sts =
      windowEvents p .dot (frame p f) (sts.take 21) ++ [.delayMs p.tScrollMs] ++ framesEvents p fs (sts.drop 21) := by
  cases fs with
  | nil => exact absurd rfl hfs
  | cons g fs => rfl

/-- The answers of the last frame are all that are left. -/
theorem answersAhead_take_self (p : Params) (n : Nat) (s : State) :
    (answersAhead p n s).take n = answersAhead p n s :=
  List.take_of_length_le (answersAhead_length p n s).le

/-- The frames of a long string from frame `w` on, `k + 1` of them, with a pause between each two (R177, R179). -/
theorem runScript_scrollSteps {p : Params} (hspace : hasGlyph p space = true) {b len k w : Nat} {s : State}
    (hin : s.inputs = []) (hstale : s.stale = []) (hg : FrameHasGlyphs p s.txt b len) (hw : w + (k + 4) = len) :
    ∃ t, runScript p ((List.range' w (k + 1)).flatMap (scrollStep p b len)) s = (endOperation p t, none) ∧
      WritesDisplay p (21 * (k + 1))
        (framesEvents p ((List.range' w (k + 1)).map fun v => textWindow s.txt (b + v))
          (answersAhead p (21 * (k + 1)) s)) s t ∧
      WindowClosed p .dot t := by
  induction k generalizing w s with
  | zero =>
    have hlast : ¬ w < len - 4 := by omega
    obtain ⟨t, hrun, hwrites, hclosed⟩ := runScript_scrollStep (len := len) hspace hin hstale []
      (hg.from_place (w := w) (by omega))
    rw [if_neg hlast] at hrun
    rw [← answersAhead_take_self] at hwrites
    exact ⟨t, by simpa using hrun, hwrites, hclosed⟩
  | succ k ih =>
    have hpause : w < len - 4 := by omega
    obtain ⟨t, hrun, hwrites, -⟩ := runScript_scrollStep (len := len) hspace hin hstale
      ((List.range' (w + 1) (k + 1)).flatMap (scrollStep p b len)) (hg.from_place (w := w) (by omega))
    have hpaused := hwrites.trans (emit_writesDisplay p (.delayMs p.tScrollMs) t)
    have htin : t.inputs = [] := hwrites.frame.host.inputs.trans hin
    rw [if_pos hpause, List.singleton_append, runScript_cons_goesOn htin rfl] at hrun
    obtain ⟨u, hrest, hrestWrites, hclosed⟩ := ih (w := w + 1) (s := emit (.delayMs p.tScrollMs) t) htin
      (hpaused.stale.trans hstale) (by rw [hpaused.txt]; exact hg) (by omega)
    rw [hpaused.txt, hpaused.answersAhead_eq] at hrestWrites
    refine ⟨u, ?_, ?_, hclosed⟩
    · rw [List.range'_succ, List.flatMap_cons, hrun, hrest]
    · have hall := hpaused.trans hrestWrites
      have hcount : 21 * (k + 1 + 1) = 21 + 0 + 21 * (k + 1) := by omega
      have htake : (answersAhead p (21 + 21 * (k + 1)) s).take 21 = answersAhead p 21 s := by
        rw [answersAhead_add, List.take_left' (answersAhead_length ..)]
      rw [List.range'_succ, List.map_cons, framesEvents_cons _ _ (by simp), hcount, Nat.add_zero, htake]
      exact hall

/-- How many frames a string has (R179). -/
theorem scrollFrames_length (m : Memory) (b n : Nat) : (scrollFrames m b n).length = max 1 (n - 3) := by
  unfold scrollFrames
  split
  · rw [List.length_singleton]
    omega
  · rw [List.length_map, List.length_range]
    omega

/-- A scroll shows its frames and is over: one of a short string, or the windows of a longer one (R177, R178). -/
theorem runScript_scrollFrames {p : Params} (hspace : hasGlyph p space = true) {b n : Nat} {s : State}
    (hin : s.inputs = []) (hstale : s.stale = []) (hg : FrameHasGlyphs p s.txt b n) :
    ∃ t, runScript p (if n ≤ 3 then scrollFrame p b n else (List.range (n - 3)).flatMap (scrollStep p b n)) s =
        (endOperation p t, none) ∧
      WritesDisplay p (21 * (scrollFrames s.txt b n).length)
        (framesEvents p (scrollFrames s.txt b n) (answersAhead p (21 * (scrollFrames s.txt b n).length) s)) s t ∧
      WindowClosed p .dot t := by
  by_cases hshort : n ≤ 3
  · have hrun := runScript_scrollFrame hspace hin hstale [] hg
    rw [List.append_nil] at hrun
    have hwrites := frameShown_writesDisplay p (shortFrame s.txt b n) s
    rw [← answersAhead_take_self] at hwrites
    rw [if_pos hshort, scrollFrames, if_pos hshort]
    exact ⟨_, hrun, hwrites, windowDone_closed ..⟩
  · obtain ⟨k, rfl⟩ : ∃ k, n = k + 4 := ⟨n - 4, by omega⟩
    have hrange : List.range (k + 4 - 3) = List.range' 0 (k + 1) := List.range_eq_range'
    rw [if_neg hshort, scrollFrames, if_neg hshort, hrange, List.length_map, List.length_range']
    exact runScript_scrollSteps hspace hin hstale hg (Nat.zero_add (k + 4))

/-- First a scroll writes the string's length (R175). -/
theorem runScript_scrollScript {p : Params} (hspace : hasGlyph p space = true) {b n : Nat} {s : State}
    (hin : s.inputs = []) (hstale : s.stale = []) (hg : FrameHasGlyphs p s.txt b n) :
    ∃ t, runScript p (scrollScript p b n) s = (endOperation p t, none) ∧
      WritesDisplay p (21 * (scrollFrames s.txt b n).length)
        (framesEvents p (scrollFrames s.txt b n) (answersAhead p (21 * (scrollFrames s.txt b n).length) s)) s t ∧
      WindowClosed p .dot t := by
  have hmark : WritesDisplay p 0 [] s { s with len := BitVec.ofNat 9 n } := writesDisplay_of_transient rfl
  obtain ⟨t, hrun, hwrites, hclosed⟩ :=
    runScript_scrollFrames (s := { s with len := BitVec.ofNat 9 n }) hspace hin hstale hg
  have hall := hmark.trans hwrites
  rw [hmark.answersAhead_eq, Nat.zero_add] at hall
  exact ⟨t, by rw [scrollScript, runScript_cons_goesOn hin rfl, hrun], hall, hclosed⟩

/-- A `SCROLL` whose checks pass, from its acceptance to its end (R175). -/
theorem exec_scroll_writesDisplay {base : BitVec 8} {n : Nat} {s : State} (hin : s.inputs = [])
    (hstale : s.stale = []) (hv : channelValid s deployed.dispCh = true) (hlen : strLen s.txt base.toNat = some n)
    (hg : FrameHasGlyphs deployed s.txt base.toNat n) :
    ∃ t, exec (.scroll base) s = .next (endOperation deployed t) ∧
      WritesDisplay deployed (21 * (scrollFrames s.txt base.toNat n).length)
        (framesEvents deployed (scrollFrames s.txt base.toNat n)
          (answersAhead deployed (21 * (scrollFrames s.txt base.toNat n).length) s)) s t ∧
      WindowClosed deployed .dot t := by
  obtain ⟨t, hrun, hwrites⟩ := runScript_scrollScript deployed_hasGlyph_space hin hstale hg
  have hplan : planOf deployed (.scroll base) s = .ok (scrollScript deployed base.toNat n) :=
    planScroll_of_string hv hlen hg
  exact ⟨t, exec_of_perform (by rw [hplan]; exact hrun), hwrites⟩

/-- Settles O43. -/
theorem scrollWritesItsFrames : Obligations.ScrollWritesItsFrames := by
  intro base n s hin hstale hv hlen hg
  obtain ⟨t, hexec, hwrites, hclosed⟩ :=
    exec_scroll_writesDisplay hin hstale hv hlen fun k hk => decide_eq_true (hg k hk)
  exact ⟨_, hexec, ⟨hwrites.err, hwrites.trace⟩, hwrites.txf, hclosed.rs, hclosed.ce, hclosed.ph, ⟨rfl, rfl⟩,
    hwrites.frame.endOperation deployed⟩

/-! #### `SCROLL`: its events counted and timed -/

/-- A window has one fall and one rise of chip enable and no pause. -/
theorem count_windowEvents (p : Params) (sp : Space) (payload : List Byte) (sts : List Status) :
    (windowEvents p sp payload sts).count (.pin .ce 0) = 1 ∧
      (windowEvents p sp payload sts).count (.pin .ce 1) = 1 ∧
      ∀ n, (windowEvents p sp payload sts).count (.delayMs n) = 0 := by
  have hpin (bs : List Byte) (sts : List Status) (v : Level) : (txEvents p bs sts).count (.pin .ce v) = 0 :=
    List.count_eq_zero.2 fun h => by rcases mem_txEvents h with ⟨b, st, h⟩ | h <;> cases h
  have hdelay (bs : List Byte) (sts : List Status) (n : Nat) : (txEvents p bs sts).count (.delayMs n) = 0 :=
    List.count_eq_zero.2 fun h => by rcases mem_txEvents h with ⟨b, st, h⟩ | h <;> cases h
  simp [windowEvents, hpin, hdelay]

/-- A pause is itself and no move of chip enable. -/
theorem count_pause (n : Nat) :
    [Event.delayMs n].count (.pin .ce 0) = 0 ∧ [Event.delayMs n].count (.pin .ce 1) = 0 ∧
      [Event.delayMs n].count (.delayMs n) = 1 := by
  simp

/-- Frames have one window each and a pause between each two (R179). -/
theorem count_framesEvents (p : Params) (fs : List Four) (sts : List Status) :
    (framesEvents p fs sts).count (.pin .ce 0) = fs.length ∧
      (framesEvents p fs sts).count (.pin .ce 1) = fs.length ∧
      (framesEvents p fs sts).count (.delayMs p.tScrollMs) = fs.length - 1 := by
  induction fs generalizing sts with
  | nil => simp [framesEvents]
  | cons f fs ih =>
    obtain ⟨hfall, hrise, hpause⟩ := count_windowEvents p .dot (frame p f) (sts.take 21)
    by_cases hfs : fs = []
    · subst hfs
      exact ⟨hfall, hrise, hpause _⟩
    · obtain ⟨ihfall, ihrise, ihpause⟩ := ih (sts.drop 21)
      obtain ⟨hnoFall, hnoRise, hone⟩ := count_pause p.tScrollMs
      have hpos := List.length_pos_iff.2 hfs
      simp only [framesEvents_cons p f hfs, List.count_append, hfall, hrise, hpause, ihfall, ihrise, ihpause, hnoFall,
        hnoRise, hone, List.length_cons]
      omega

/-- Frames begin with the selection of the dot space (R140). -/
theorem framesEvents_head? (p : Params) {fs : List Four} (hfs : fs ≠ []) (sts : List Status) :
    (framesEvents p fs sts).head? = some (.pin .rs (spaceLevel p .dot)) := by
  cases fs with
  | nil => exact absurd rfl hfs
  | cons f fs => cases fs <;> rfl

/-- A place of `a` in a list that has an `a` after a part without one: that `a`, or a later one. -/
theorem append_cons_split {α : Type} {a : α} {as bs pre post : List α} (ha : a ∉ as)
    (h : as ++ a :: bs = pre ++ a :: post) :
    (pre = as ∧ post = bs) ∨ ∃ pre', pre = as ++ a :: pre' ∧ bs = pre' ++ a :: post := by
  rcases List.append_eq_append_iff.1 h with ⟨cs, rfl, hcs⟩ | ⟨cs, rfl, hcs⟩
  · cases cs with
    | nil => exact .inl ⟨by simp, by simpa using hcs.symm⟩
    | cons c cs =>
      obtain ⟨rfl, hbs⟩ := List.cons.inj hcs
      exact .inr ⟨cs, rfl, hbs⟩
  · cases cs with
    | nil => exact .inl ⟨by simp, by simpa using hcs⟩
    | cons c cs =>
      obtain ⟨rfl, -⟩ := List.cons.inj hcs
      exact absurd (by simp) ha

/-- Before each pause stand as many windows as pauses and one more, and a frame follows it: no pause is the first
event or the last (R179). -/
theorem pause_in_framesEvents {p : Params} {fs : List Four} {sts : List Status} {pre post : List Event}
    (h : framesEvents p fs sts = pre ++ Event.delayMs p.tScrollMs :: post) :
    pre.count (.pin .ce 0) = pre.count (.delayMs p.tScrollMs) + 1 ∧
      pre.count (.pin .ce 1) = pre.count (.delayMs p.tScrollMs) + 1 ∧
      post.head? = some (.pin .rs (spaceLevel p .dot)) := by
  induction fs generalizing sts pre with
  | nil => simp [framesEvents] at h
  | cons f fs ih =>
    obtain ⟨hfall, hrise, hpause⟩ := count_windowEvents p .dot (frame p f) (sts.take 21)
    have hnone := List.count_eq_zero.1 (hpause p.tScrollMs)
    by_cases hfs : fs = []
    · subst hfs
      exact absurd (h ▸ by simp : Event.delayMs p.tScrollMs ∈ framesEvents p [f] sts) hnone
    · obtain ⟨hnoFall, hnoRise, hone⟩ := count_pause p.tScrollMs
      rw [framesEvents_cons p f hfs, List.append_assoc, List.singleton_append] at h
      rcases append_cons_split hnone h with ⟨rfl, rfl⟩ | ⟨pre', rfl, hrest⟩
      · exact ⟨by rw [hfall, hpause], by rw [hrise, hpause], framesEvents_head? p hfs _⟩
      · obtain ⟨ihfall, ihrise, ihhead⟩ := ih hrest
        rw [← List.singleton_append, ← List.append_assoc]
        simp only [List.count_append, hfall, hrise, hpause, ihfall, ihrise, hnoFall, hnoRise, hone]
        exact ⟨by omega, by omega, ihhead⟩

theorem length_txEvents_of_ok (p : Params) {bs : List Byte} {sts : List Status} (hlen : sts.length = bs.length)
    (hok : ∀ st ∈ sts, st = .ok) : (txEvents p bs sts).length = bs.length := by
  induction bs generalizing sts with
  | nil => simp [txEvents]
  | cons b bs ih =>
    cases sts with
    | nil => simp at hlen
    | cons st sts =>
      obtain ⟨rfl, hrest⟩ := List.forall_mem_cons.1 hok
      simpa [txEvents, statusEvents] using ih (Nat.succ.inj hlen) hrest

/-- A window with no failure has five events besides its transmits (R154). -/
theorem length_windowEvents_of_ok (p : Params) (sp : Space) {payload : List Byte} {sts : List Status}
    (hlen : sts.length = payload.length + 1) (hok : ∀ st ∈ sts, st = .ok) :
    (windowEvents p sp payload sts).length = payload.length + 6 := by
  have hsent := length_txEvents_of_ok p (bs := payload) (sts := sts.take payload.length) (by simp [hlen])
    fun st h => hok st (List.mem_of_mem_take h)
  have hlast := length_txEvents_of_ok p (bs := [0]) (sts := sts.drop payload.length) (by simp [hlen])
    fun st h => hok st (List.mem_of_mem_drop h)
  simp only [windowEvents, List.length_append, hsent, hlast, List.length_cons, List.length_nil]
  omega

/-- The statuses of the first frame are 21 of those of all. -/
theorem length_take_frameStatuses {n : Nat} {sts : List Status} (hlen : sts.length = 21 * (n + 1)) :
    (sts.take 21).length = 21 ∧ (sts.drop 21).length = 21 * n := by
  simp only [List.length_take, List.length_drop]
  omega

/-- With no failure, 26 events for each frame and one for each pause (R260). -/
theorem length_framesEvents_of_ok (p : Params) {fs : List Four} {sts : List Status}
    (hlen : sts.length = 21 * fs.length) (hok : ∀ st ∈ sts, st = .ok) :
    (framesEvents p fs sts).length = 26 * fs.length + (fs.length - 1) := by
  induction fs generalizing sts with
  | nil => rfl
  | cons f fs ih =>
    obtain ⟨htake, hdrop⟩ := length_take_frameStatuses hlen
    have hwindow := length_windowEvents_of_ok p .dot (payload := frame p f) (sts := sts.take 21)
      (by rw [htake, frame_length]) fun st h => hok st (List.mem_of_mem_take h)
    rw [frame_length] at hwindow
    by_cases hfs : fs = []
    · subst hfs
      exact hwindow
    · have hrest := ih hdrop fun st h => hok st (List.mem_of_mem_drop h)
      have hpos := List.length_pos_iff.2 hfs
      rw [framesEvents_cons p f hfs]
      simp only [List.length_append, hwindow, hrest, List.length_cons, List.length_nil]
      omega

/-- Frames take their windows' least times and the pauses (R265). -/
theorem leastMicros_framesEvents (p : Params) (cfgs : Sparse 16) {fs : List Four} {sts : List Status}
    (hlen : sts.length = 21 * fs.length) :
    leastMicros p cfgs (framesEvents p fs sts) =
      1000 * p.tScrollMs * ((fs.length - 1 : Nat) : Rat) +
        fs.length * (p.tSettleUs + p.tPostUs + 21 * displayMicros p cfgs) := by
  induction fs generalizing sts with
  | nil => simp [framesEvents, leastMicros]
  | cons f fs ih =>
    obtain ⟨htake, hdrop⟩ := length_take_frameStatuses hlen
    have hwindow := leastMicros_windowEvents p cfgs .dot (frame p f) (sts := sts.take 21)
      (by rw [htake, frame_length])
    rw [frame_length] at hwindow
    cases fs with
    | nil =>
      rw [framesEvents, hwindow, List.length_singleton]
      push_cast
      ring
    | cons g fs =>
      have hcfgs := foldl_cfgsAfter_of_noTinit (tinit_notMem_windowEvents p .dot (frame p f) (sts.take 21)) cfgs
      rw [framesEvents_cons p f (by simp)]
      simp only [leastMicros_append, List.foldl_append, List.foldl_cons, List.foldl_nil, cfgsAfter, hcfgs, hwindow,
        ih hdrop, leastMicros, eventMicros, List.length_cons, Nat.add_sub_cancel]
      push_cast
      ring

/-- A bit period is no negative time (R42, R54). -/
theorem displayMicros_nonneg (p : Params) (cfgs : Sparse 16) : 0 ≤ displayMicros p cfgs := by
  unfold displayMicros byteMicros bitClock
  split
  · rename_i h
    split at h <;> cases h
    positivity
  · exact le_rfl

/-- Settles O45. -/
theorem scrollFramesAndPauses : Obligations.ScrollFramesAndPauses := by
  intro base n f s hin hstale hv hlen hg hf
  obtain ⟨t, hexec, hwrites, -⟩ :=
    exec_scroll_writesDisplay hin hstale hv hlen fun k hk => decide_eq_true (hg k hk)
  have hcount := (scrollFrames_length s.txt base.toNat n).trans hf.symm
  obtain ⟨hfall, hrise, hpause⟩ := count_framesEvents deployed (scrollFrames s.txt base.toNat n)
    (answersAhead deployed (21 * f) s)
  have htime := leastMicros_framesEvents deployed s.tcfg (fs := scrollFrames s.txt base.toNat n)
    (sts := answersAhead deployed (21 * f) s) (by simp [hcount])
  have hevents := length_framesEvents_of_ok deployed (fs := scrollFrames s.txt base.toNat n)
    (sts := answersAhead deployed (21 * f) s) (by simp [hcount])
  rw [hcount] at hfall hrise hpause htime hevents
  have hwindows : 0 ≤ (f : Rat) * (deployed.tSettleUs + deployed.tPostUs + 21 * displayMicros deployed s.tcfg) := by
    have := displayMicros_nonneg deployed s.tcfg
    positivity
  have hms : ((deployed.tScrollMs : Nat) : Rat) = 1000 := by norm_num [deployed]
  rw [hms] at htime
  refine ⟨_, _, hexec, ?_, hfall, hrise, hpause, fun _ _ => pause_in_framesEvents, hevents, ?_, htime⟩
  · rw [← hcount]
    exact hwrites.trace
  · rw [htime]
    exact le_add_of_nonneg_right hwindows

/-! #### The integer format -/

/-- The last `w` decimal digits of `n` as characters, leading zeros kept (R181). -/
def fixedDigits : Nat → Nat → List Byte
  | 0, _ => []
  | w + 1, n => fixedDigits w (n / 10) ++ [digitCode (n % 10)]

theorem decimalDigits_of_lt {n : Nat} (fuel : Nat) (h : n < 10) : decimalDigits (fuel + 1) n = [n] := if_pos h

theorem decimalDigits_of_ge {n : Nat} (fuel : Nat) (h : 10 ≤ n) :
    decimalDigits (fuel + 1) n = decimalDigits fuel (n / 10) ++ [n % 10] := if_neg (not_lt.2 h)

theorem fixedDigits_zero (w : Nat) : fixedDigits w 0 = List.replicate w 48 := by
  induction w with
  | zero => rfl
  | succ w ih =>
    rw [fixedDigits, Nat.zero_div, ih, List.replicate_succ']
    rfl

theorem zeroPad_concat (w : Nat) (s : List Byte) (c : Byte) : zeroPad (w + 1) (s ++ [c]) = zeroPad w s ++ [c] := by
  simp [zeroPad]

/-- A string that is long enough is not padded. -/
theorem zeroPad_of_le {w : Nat} {s : List Byte} (h : w ≤ s.length) : zeroPad w s = s := by
  simp [zeroPad, Nat.sub_eq_zero_of_le h]

/-- Padded with zeros to a width that it fits, a number is its digits of that width. -/
theorem zeroPad_decimalDigits {w fuel n : Nat} (hw : 0 < w) (hfuel : w ≤ fuel) (hn : n < 10 ^ w) :
    zeroPad w ((decimalDigits fuel n).map digitCode) = fixedDigits w n := by
  induction w generalizing fuel n with
  | zero => cases hw
  | succ w ih =>
    obtain ⟨fuel, rfl⟩ : ∃ f, fuel = f + 1 := ⟨fuel - 1, by omega⟩
    by_cases hlt : n < 10
    · rw [decimalDigits_of_lt fuel hlt, fixedDigits, Nat.div_eq_of_lt hlt, Nat.mod_eq_of_lt hlt, fixedDigits_zero]
      rfl
    · have hpos : 0 < w := by
        rcases Nat.eq_zero_or_pos w with rfl | h
        · omega
        · exact h
      rw [decimalDigits_of_ge fuel (not_lt.1 hlt), List.map_append, List.map_singleton, zeroPad_concat,
        ih hpos (by omega) (by omega), fixedDigits]

/-- A number of more than `w` digits is written with more than `w` characters. -/
theorem lt_length_decimalDigits {w fuel n : Nat} (hfuel : w < fuel) (hn : 10 ^ w ≤ n) :
    w < (decimalDigits fuel n).length := by
  induction w generalizing fuel n with
  | zero =>
    obtain ⟨fuel, rfl⟩ : ∃ f, fuel = f + 1 := ⟨fuel - 1, by omega⟩
    unfold decimalDigits
    split <;> simp
  | succ w ih =>
    obtain ⟨fuel, rfl⟩ : ∃ f, fuel = f + 1 := ⟨fuel - 1, by omega⟩
    have hpow : 0 < 10 ^ w := by positivity
    rw [decimalDigits_of_ge fuel (by omega), List.length_append]
    exact Nat.succ_lt_succ (ih (by omega) (by omega))

/-- The digits of a number begin with those of the number without its last `k` digits. -/
theorem decimalDigits_prefix {k n : Nat} (fuel : Nat) (hn : 10 ^ k ≤ n) :
    decimalDigits fuel (n / 10 ^ k) <+: decimalDigits (fuel + k) n := by
  induction k generalizing n with
  | zero => simp
  | succ k ih =>
    have hpow : 0 < 10 ^ k := by positivity
    have hten : n / 10 ^ (k + 1) = n / 10 / 10 ^ k := by rw [Nat.pow_succ', Nat.div_div_eq_div_mul]
    rw [hten, ← Nat.add_assoc, decimalDigits_of_ge _ (by omega)]
    exact (ih (by omega)).trans (List.prefix_append ..)

/-- Of a number with `k` digits too many for the width `w`, the first `w` characters are the digits of the number
without its last `k` (R181). -/
theorem fixedDigits_prefix_of_long {w k n : Nat} (hfuel : w + 1 + k ≤ 10) (hlow : 10 ^ (k + w) ≤ n)
    (hhigh : n < 10 ^ (k + (w + 1))) :
    fixedDigits (w + 1) (n / 10 ^ k) <+: zeroPad (w + 1) ((decimalDigits 10 n).map digitCode) := by
  have hpow : 0 < 10 ^ k := by positivity
  have hcut : 10 ^ w ≤ n / 10 ^ k := by rwa [Nat.le_div_iff_mul_le hpow, ← Nat.pow_add, Nat.add_comm]
  have hfits : n / 10 ^ k < 10 ^ (w + 1) := by rwa [Nat.div_lt_iff_lt_mul hpow, ← Nat.pow_add, Nat.add_comm]
  have hlong : w + 1 ≤ ((decimalDigits (10 - k) (n / 10 ^ k)).map digitCode).length := by
    rw [List.length_map]
    exact lt_length_decimalDigits (by omega) hcut
  have hprefix : decimalDigits (10 - k) (n / 10 ^ k) <+: decimalDigits 10 n := by
    have h := decimalDigits_prefix (10 - k) ((Nat.pow_le_pow_right (by decide) (Nat.le_add_right k w)).trans hlow)
    rwa [Nat.sub_add_cancel (by omega)] at h
  rw [← zeroPad_decimalDigits (fuel := 10 - k) (Nat.succ_pos w) (by omega) hfits, zeroPad_of_le hlong,
    zeroPad_of_le (hlong.trans (hprefix.map _).length_le)]
  exact hprefix.map _

/-- Only the first four characters of a string count. -/
theorem firstFour_of_prefix {s t : List Byte} (h : s <+: t) (hlen : 4 ≤ s.length) : firstFour t = firstFour s := by
  obtain ⟨tail, rfl⟩ := h
  simp only [firstFour]
  rw [List.getD_append, List.getD_append, List.getD_append, List.getD_append] <;> omega

theorem fixedDigits_length (w n : Nat) : (fixedDigits w n).length = w := by
  induction w generalizing n with
  | zero => rfl
  | succ w ih => rw [fixedDigits, List.length_append, ih]; rfl

/-- The string of a number that is not negative (R181). -/
theorem intText_natCast (n : Nat) : intText n = zeroPad 4 ((decimalDigits 10 n).map digitCode) := by
  rw [intText, if_pos (Int.natCast_nonneg n), Int.natAbs_natCast]

/-- The string of a negative number (R181). -/
theorem intText_neg {n : Nat} (h : 1 ≤ n) :
    intText (-(n : Int)) = 45 :: zeroPad 3 ((decimalDigits 10 n).map digitCode) := by
  have hneg : ¬ (0 : Int) ≤ -(n : Int) := by omega
  rw [intText, if_neg hneg, Int.natAbs_neg, Int.natAbs_natCast]

theorem fmtInt_natCast {n : Nat} (h : n < 10 ^ 4) : fmtInt n = firstFour (fixedDigits 4 n) := by
  rw [fmtInt, intText_natCast, zeroPad_decimalDigits (by decide) (by decide) h]

theorem fmtInt_neg {n : Nat} (hpos : 1 ≤ n) (h : n < 10 ^ 3) :
    fmtInt (-(n : Int)) = firstFour (45 :: fixedDigits 3 n) := by
  rw [fmtInt, intText_neg hpos, zeroPad_decimalDigits (by decide) (by decide) h]

/-- Settles O46: a number that fits is its digits, a longer one begins with those of a number that fits. -/
theorem integerFormat : Obligations.IntegerFormat := by
  refine ⟨fun n hn => ?_, fun n k hk hk6 hlow hhigh => ?_, fun n hpos hn => ?_, fun n k hk hk7 hlow hhigh => ?_⟩
  · have hlead : n / 10 / 10 / 10 % 10 = n / 1000 := by omega
    have hsecond : n / 10 / 10 % 10 = n / 100 % 10 := by omega
    rw [fmtInt_natCast (by omega)]
    simp [fixedDigits, firstFour, hlead, hsecond]
  · have hfits : n / 10 ^ k < 10 ^ 4 := by
      rwa [Nat.div_lt_iff_lt_mul (by positivity), ← Nat.pow_add, Nat.add_comm]
    rw [fmtInt_natCast hfits, fmtInt, intText_natCast]
    exact firstFour_of_prefix (fixedDigits_prefix_of_long (by omega) hlow hhigh) (fixedDigits_length ..).ge
  · have hlead : n / 10 / 10 % 10 = n / 100 := by omega
    rw [fmtInt_neg hpos (by omega)]
    simp [fixedDigits, firstFour, hlead]
  · have hfits : n / 10 ^ k < 10 ^ 3 := by
      rwa [Nat.div_lt_iff_lt_mul (by positivity), ← Nat.pow_add, Nat.add_comm]
    have hcut : 10 ^ k ≤ n := Nat.le_trans (Nat.pow_le_pow_right (by decide) (by omega)) hlow
    have hpow : 0 < 10 ^ k := by positivity
    rw [fmtInt_neg (Nat.div_pos hcut hpow) hfits, fmtInt, intText_neg (by omega)]
    exact firstFour_of_prefix (List.cons_prefix_cons.2 ⟨rfl, fixedDigits_prefix_of_long (by omega) hlow hhigh⟩)
      (by simp [fixedDigits_length])

/-! #### Renderings -/

/-- A rendering is `WriteGlyphs` of its four codes (R180, R182, R183). -/
theorem planOf_rendering {i : Instr} {f : Four} (s : State)
    (hi : (∃ n, i = .renderInt n ∧ f = fmtInt n.toInt) ∨ (∃ x, i = .renderFloat x ∧ f = deployed.fmtFloat x) ∨
      ∃ c, i = .renderErr c ∧ f = deployed.fmtErr c) :
    planOf deployed i s = planGlyphs deployed f s := by
  rcases hi with ⟨n, rfl, rfl⟩ | ⟨x, rfl, rfl⟩ | ⟨c, rfl, rfl⟩ <;> rfl

/-- Settles O47: the checks of `WriteGlyphs` pass and the one window is the frame's, or they fail before any
event. -/
theorem renderingsWriteOneFrame : Obligations.RenderingsWriteOneFrame := by
  intro i f s hin hv hi
  have hplan := planOf_rendering s hi
  refine ⟨fun hg => ?_, fun hbad => exec_refused (hplan.trans (planGlyphs_of_badGlyph hv hbad))⟩
  obtain ⟨t, hrun, hwrote⟩ := perform_planGlyphs hin hv hg
  exact ⟨t, exec_of_perform (by rw [hplan]; exact hrun), hwrote⟩

end Sys2Proof.Machine

/-! ### How operations end -/

namespace Sys2Proof.Machine

/-! #### The window is closed -/

/-- The rest of an operation that no input of the host disturbs: chip enable and phase agree, and the actions
stand in their places, whatever the channel's validity. Less than `Running`, which rests on the invariant: a state
that only has the window closed meets it. -/
structure InPlace (script : List Action) (s : State) : Prop where
  inputs : s.inputs = []
  chip : ChipMatchesPhase s.ce s.ph
  position : ∃ valid, flows deployed script s.ph valid = true

/-- What R207 asks of the end of an operation. -/
def EndsClosed (t : State) : Prop := t.ph = .idle ∧ t.ce = 1 ∧ Over t

/-- Where the phase is idle the window is closed (R24). -/
theorem ChipMatchesPhase.closed {ce : Level} (h : ChipMatchesPhase ce .idle) : ce = 1 :=
  (BitVec.eq_zero_or_eq_one ce).resolve_left fun hce => by simpa using h.1 hce

theorem endsClosed_endOperation {s : State} (hph : s.ph = .idle) (hce : s.ce = 1) :
    EndsClosed (endOperation deployed s) := ⟨hph, hce, rfl, rfl⟩

theorem endsClosed_raise {s : State} (hph : s.ph = .idle) (hce : s.ce = 1) (e : Err) :
    EndsClosed (raise deployed e s) := endsClosed_endOperation (s := recordError e s) hph hce

/-- An error leaves phase and chip enable as they were. -/
theorem keepsChip_of_raises {p : Params} {a : Action} {s t : State} {e : Err} (h : doAction p a s = .raises e t) :
    t.ph = s.ph ∧ t.ce = s.ce := by
  rcases doAction_raises h with ⟨pp, -, -, rfl⟩ | ⟨ch, cfg, -, -, rfl⟩
  · exact ⟨rfl, rfl⟩
  · simp [spoilCfg]

theorem InPlace.flow {a : Action} {rest : List Action} {s : State} (h : InPlace (a :: rest) s) :
    ∃ valid ph' valid', Machine.flow deployed a s.ph valid = some (ph', valid') ∧
      flows deployed rest ph' valid' = true := by
  obtain ⟨valid, hpos⟩ := h.position
  rw [flows] at hpos
  split at hpos
  · exact ⟨valid, _, _, ‹_›, hpos⟩
  · cases hpos

theorem InPlace.goesOn {a : Action} {rest : List Action} {s t : State} (h : InPlace (a :: rest) s)
    (hd : doAction deployed a s = .goesOn t) : InPlace rest t := by
  have hreach : (doAction deployed a s).Reaches t := by rw [hd]; rfl
  obtain ⟨valid, ph', valid', hf, hrest⟩ := h.flow
  obtain ⟨rfl, -, hchip⟩ := flow_leads hf h.chip
  obtain ⟨hph, hce⟩ := doAction_phase hreach
  refine ⟨(doAction_effect hreach).2.inputs.trans h.inputs, ?_, valid', ?_⟩
  · rwa [hph, hce]
  · rwa [hph]

theorem InPlace.raises {a : Action} {rest : List Action} {s t : State} {e : Err} (h : InPlace (a :: rest) s)
    (hd : doAction deployed a s = .raises e t) : EndsClosed (raise deployed e t) := by
  obtain ⟨valid, ph', valid', hf, -⟩ := h.flow
  have hidle : s.ph = .idle := idle_of_raises hd hf
  obtain ⟨hph, hce⟩ := keepsChip_of_raises hd
  exact endsClosed_raise (hph.trans hidle) (hce.trans (hidle ▸ h.chip).closed) e

/-- A run of actions in their places ends with the window closed, whether it is done or raises an error. -/
theorem InPlace.endsClosed_of_runScript {script : List Action} {s t : State} (h : InPlace script s)
    (hrun : runScript deployed script s = (t, none)) : EndsClosed t := by
  induction script generalizing s with
  | nil =>
    obtain rfl : endOperation deployed s = t := congrArg Prod.fst hrun
    obtain ⟨_, hpos⟩ := h.position
    have hidle : s.ph = .idle := by simpa [flows] using hpos
    exact endsClosed_endOperation hidle (hidle ▸ h.chip).closed
  | cons a rest ih =>
    cases hd : doAction deployed a s with
    | goesOn u =>
      rw [runScript_cons_goesOn h.inputs hd] at hrun
      exact ih (h.goesOn hd) hrun
    | raises e u =>
      rw [runScript_cons_raises h.inputs hd] at hrun
      obtain rfl : raise deployed e u = t := congrArg Prod.fst hrun
      exact h.raises hd
    | breaks f u =>
      rw [runScript_cons_breaks h.inputs hd] at hrun
      cases hrun

/-- Settles O14: a refusal comes before any action, and every script's actions stand in their places. -/
theorem everyOperationEndsWithTheWindowClosed : Obligations.EveryOperationEndsWithTheWindowClosed := by
  intro i s t hin hph hce h
  rcases exec_next_cases h with ⟨e, k, -, rfl⟩ | ⟨script, hscr, hrun⟩
  · exact endsClosed_raise hph hce e
  · have hplace : InPlace script s := ⟨hin, by simp [ChipMatchesPhase, hph, hce], _, hph ▸ hscr.flows⟩
    exact hplace.endsClosed_of_runScript hrun

/-! #### Reserved opcodes -/

/-- An opcode without a row in R71 is reserved (R78). -/
theorem runCommand_of_reserved {run : Instr → State → Host.Outcome State Fault Refusal} {cw : CmdWord}
    (h : opField cw ∉ definedOpcodes) (s : State) :
    runCommand run cw s = .next (illegalCommand (accept cw s)) := by
  unfold runCommand
  split
  · exact absurd ((decode_ok_iff_definedOpcode cw).1 ⟨_, ‹_›⟩) h
  · rfl

/-- Settles O5: the command is accepted, reported, and no script runs. -/
theorem reservedOpcodeIsReported : Obligations.ReservedOpcodeIsReported := by
  intro s cw rest hdue hb hp hres
  rw [step_of_command hdue hb hp, runCommand_of_reserved hres]
  simp [illegalCommand, recordError, emitAll, accept, hb, Err.logEvents, Err.logKind]

end Sys2Proof.Machine

/-! ### Waiting and the reset input -/

namespace Sys2Proof.Machine

/-! #### No command presented -/

/-- With nothing running, presented or due, only the wait of the next input goes on (R240). -/
theorem step_of_idle {s : State} (hdue : inputDue s = false) (hb : s.busy = false) (hp : s.port = []) :
    step s = .next (passTime s) := by
  rw [step_of_not_due hdue]
  simp [takeTurn, hb, hp]

/-- Settles O7: with no input pending there is no wait to go on. -/
theorem idleBlockWaits : Obligations.IdleBlockWaits := by
  intro s hin hb hp
  rw [step_of_idle (inputDue_of_none hin) hb hp, passTime_of_none hin]

/-! #### The device at a reset of the block -/

/-- A write of CE at its own level is no edge (R59, R61). -/
theorem Shadow.onCe_of_level (p : Params) {d : Shadow} {v : Level} (h : d.ce = v) : d.onCe p v = d := by
  simp [Shadow.onCe, h]

/-- RST at 1 stays at 1 (R64). -/
theorem Shadow.onRst_one_of_level {d : Shadow} (h : d.rst = 1) : d.onRst 1 = d := by
  cases d
  cases h
  simp [Shadow.onRst]

/-- Between windows, with no latch outstanding and RST at 1, a reset of the block brings the device no edge. -/
theorem Shadow.onBlockReset_of_atRest (p : Params) {d : Shadow} (hce : d.ce = 1) (hpend : d.pend = none)
    (hrst : d.rst = 1) : d.onBlockReset p = d := by
  rw [Shadow.onBlockReset, Shadow.onCe_of_level p hce, Shadow.losePending_of_noPending hpend,
    Shadow.onRst_one_of_level hrst]

/-- The rise of CE leaves the open window pending (R61). -/
theorem Shadow.onCe_one_of_open (p : Params) {d : Shadow} (h : d.ce = 0) :
    d.onCe p 1 =
      { d with bad := d.bad || (d.sr ≠ some [] && !d.txSettled), pend := some (d.sel, d.sr), ce := 1 } := by
  simp [Shadow.onCe, h]

/-- A reset in an open window loses it: of the two registers, that of the window's space becomes unknown
(R242). -/
theorem Shadow.onBlockReset_of_open (p : Params) {d : Shadow} (hce : d.ce = 0) :
    (d.onBlockReset p).ctrl = (d.forget d.sel).ctrl ∧ (d.onBlockReset p).dot = (d.forget d.sel).dot := by
  rw [Shadow.onBlockReset, Shadow.onCe_one_of_open p hce]
  cases hsel : d.sel <;> simp [Shadow.losePending, Shadow.forget, Shadow.onRst]

/-! #### The reset input -/

/-- The reset empties the trace, so what the device holds is what the reset left it. -/
@[simp] theorem shadow_blockReset (p : Params) (s : State) :
    (blockReset p s).shadow p = (s.shadow p).onBlockReset p := rfl

/-- Settles O9: the due input is the reset, which rewrites every register it names; the device sees CE and RST
go to 1. -/
theorem resetInputAbandonsTheOperation : Obligations.ResetInputAbandonsTheOperation := by
  intro s rest hin
  have hdevice : (blockReset deployed { s with inputs := rest }).shadow deployed =
      (s.shadow deployed).onBlockReset deployed := shadow_blockReset deployed { s with inputs := rest }
  refine ⟨blockReset deployed { s with inputs := rest }, step_of_due hin, rfl, rfl, rfl, rfl, rfl, rfl, rfl,
    fun _ => rfl, fun _ => rfl, rfl, rfl, rfl, rfl, rfl, rfl, rfl, ?_, ?_, ?_⟩ <;> rw [hdevice]
  · exact Shadow.onBlockReset_of_atRest deployed
  · intro hopen hsel
    rw [(Shadow.onBlockReset_of_open deployed hopen).1, hsel, Shadow.forget]
  · intro hopen hsel
    rw [(Shadow.onBlockReset_of_open deployed hopen).2, hsel, Shadow.forget]

end Sys2Proof.Machine
